-- ==== Sys2Proof/Word.lean ====
section
/-! DEFINITION. The words, unit numbers and operand records that the commands of the YN-832 carry. -/

namespace Sys2Proof

/-- One byte. -/
abbrev Byte := BitVec 8

/-- A 32-bit word: an Opxus general register, a port value, a command dword. -/
abbrev Word := BitVec 32

/-- A general register w0 to w31 (R277). -/
abbrev Reg := Fin 32

/-- A predicate register p0 to p7 (R277). -/
abbrev PReg := Fin 8

/-- A core by its global number, region × 32 + block × 8 + core (R11). -/
abbrev CoreId := Fin 256

/-- A region (R11). -/
abbrev RegionId := Fin 8

/-- A host port, PE0 or PE1 (R61). -/
abbrev PortId := Fin 2

/-- The guard of an Opxus instruction: predicate and inversion bit N (R293). -/
structure Guard where
  neg : Bool
  p   : PReg
  deriving DecidableEq, Repr

/-- The guard (p0), under which an instruction always executes (R293). -/
def Guard.always : Guard := { neg := false, p := 0 }

/-- Where a host command came from: port, submission queue (0 is the admin queue) and command identifier. -/
structure Sub where
  port : PortId
  sq   : Nat
  cid  : Nat
  deriving DecidableEq, Repr

/-- Command dwords 10 to 15 of a vendor command. -/
structure Cdw where
  d10 : Word := 0
  d11 : Word := 0
  d12 : Word := 0
  d13 : Word := 0
  d14 : Word := 0
  d15 : Word := 0
  deriving DecidableEq, Repr

/-- The four levels of R12. -/
inductive Level where
  | cell | block | region | chip
  deriving DecidableEq, Repr

/-- A unit as log 0xC4 names it: KIND and INDEX (R521). -/
structure Site where
  kind  : Nat
  index : Nat
  deriving DecidableEq, Repr

/-- The resets of R64. -/
inductive ResetKind where
  | conventional | hot | linkDown | flr
  deriving DecidableEq, Repr

/-- The arbiters: one for each block and each region, the chip's, and that of the host front end (R12, R42). -/
inductive ArbId where
  | block (b : Fin 32)
  | region (r : RegionId)
  | chip
  | frontEnd
  deriving DecidableEq, Repr

/-- What an arbiter's members share (R12). -/
inductive Resource where
  | blockSram | dmaChannel | ioPort
  | regionFabric | dramPort | chipFabric
  | dramRing | hostFrontEnd | securityBlock
  | hostLink
  deriving DecidableEq, Repr

/-- Budgeted work, each kind with a holdback of its own (R43, R49). -/
inductive Budget where
  | gc | traverse | scrub
  deriving DecidableEq, Repr

/-- The operation a request belongs to, which says whether it carries a deadline (R49). -/
inductive Work where
  | bestEffort
  /-- a write of a reserved stream, by its command -/
  | reservedWrite (h : Sub)
  | dumpStep
  /-- refresh or DRFM of a DRAM channel, with the datum at which it fell due (R260) -/
  | refresh (due : Nat)
  /-- a periodic step of a DRAM channel, with the datum at which it fell due (R262) -/
  | dramStep (due : Nat)
  | holdUpStep
  | activationStep
  | budgeted (b : Budget)
  deriving DecidableEq, Repr

/-- The PCI configuration registers to which R62, R63 and R65 give values, each as its whole dword. -/
inductive ConfigReg where
  | ids | classCode | bar (n : Fin 6) | rom | subsystem | interrupt
  | deviceCaps | deviceControl | linkCaps | linkControl | msixControl | ecrcControl | pasidCaps | pasidControl
  deriving DecidableEq, Repr

/-- The registers of a port that the host reaches: configuration space, and the memory behind a BAR (R62, R65). -/
inductive RegSpace where
  | config (reg : ConfigReg)
  | bar (n : Fin 6)
  deriving DecidableEq, Repr

/-- A request waiting at an arbiter: the work it belongs to, the datum of the handshake at which it arrived, the
requesting unit, the slice it acts for, the resource it asks for and the bytes of its transfer (R19, R49 to R51). -/
structure ArbReq where
  work     : Work
  arrival  : Nat
  unit     : Site
  slice    : Nat
  resource : Resource
  bytes    : Nat
  deriving DecidableEq, Repr

/-- What the receiver of a fabric transfer sees: the code values that each handshake's bit goes through, and the bytes
it latches, bit 8 their parity, at the transfer and at its repeat (R17, R18). -/
structure FabricSeen where
  wires : List (Nat × List (BitVec 2)) := []
  data  : List (BitVec 9) := []
  again : List (BitVec 9) := []
  deriving DecidableEq, Repr

/-- One decode attempt: the iterations it takes to converge, and the syndrome weight it leaves when it does not within its
limit (R224, R226). -/
structure Decode where
  iters  : Nat
  weight : Nat
  deriving DecidableEq, Repr

/-- What the decoder meets on one codeword (R226): the hard decodes at the stored level and at the retry levels in their
order; the bits in which the reads at −δ and at +δ differ from the middle one; the soft decodes from those two reads, and
with a third read at 2δ on the minus or on the plus side. -/
structure CwRead where
  hard    : List Decode
  minus   : Nat
  plus    : Nat
  soft    : Nat
  softMinus : Nat
  softPlus  : Nat
  deriving DecidableEq, Repr

/-- How one codeword of a page read was decoded (R226). -/
inductive CwOutcome where
  | hard (iterations : Nat)
  | retry (level iterations : Nat)
  | soft (level iterations : Nat)
  | failed
  deriving DecidableEq, Repr

/-- The outcome of decoding one burst (R265). -/
inductive BurstOutcome where
  | clean
  | corrected (group : Nat)
  | misdirected
  | uncorrectable
  deriving DecidableEq, Repr

/-- Where a byte of compute memory lies: the areas of D-space (R371) and set U itself (R465). -/
inductive Space where
  | scratch (task : Nat)
  | priv (task : Nat)
  | invArea (inv : Nat)
  | input (inv : Nat)
  | common (slice : Nat)
  | pool (slice : Nat)
  | setU
  deriving DecidableEq, Repr

/-- What a DRAM burst holds, by the rows of R269. -/
inductive BurstContent where
  | instr (slot addr : Nat)
  | setW (line : Nat)
  | setS
  | mapPage (nsid page : Nat)
  | compute (slice : Nat) (space : Space) (addr : Nat)
  deriving DecidableEq, Repr

/-- Who reads a DRAM burst (R269). -/
inductive BurstReader where
  | fetch (c : CoreId)
  | load (task : Nat)
  | engine (task : Nat)
  | host (h : Sub)
  | none
  deriving DecidableEq, Repr

/-- What an SRAM word holds (R267). -/
inductive SramUse where
  | instrCache | stuEntry
  | taskData (task : Nat)
  | other
  deriving DecidableEq, Repr

/-- An address within a set of DRAM: a line of set W and a byte of it, an address of set S, or an extent of set U and an
address in it (R249, R250). -/
inductive DramPlace where
  | setW (line off : Nat)
  | setS (addr : Nat)
  | setU (extent addr : Nat)
  deriving DecidableEq, Repr

/-- A request of one burst that reaches a subchannel (R255, R256): a read, or a write of 64 bytes with byte enables;
`second` is the write of the copy in DCH4 to DCH7. -/
structure DramRequest where
  write : Bool
  place : DramPlace
  second : Bool
  data : List Byte
  enables : BitVec 64
  deadline : Option Nat
  content : BurstContent
  reader : BurstReader
  deriving DecidableEq, Repr

/-- A switched power domain: region and number 0 to 46 within it, in the order of R55 (core cells 0-31, blocks
32-35, channel engines 36-39, key-array banks 40-43, inline hasher 44, digest engine 45, fabric 46). -/
structure Domain where
  region : RegionId
  index  : Nat
  deriving DecidableEq, Repr

/-- The vendor attributes and sizes that a Namespace Management create carries (R77, R101, R147, R196). -/
structure NsParams where
  nsze  : Nat
  ncap  : Nat
  flbas : Nat
  anagrp : Nat
  /-- bytes 3072 to 3079 -/
  vendor : List Byte
  deriving DecidableEq, Repr

/-- The strap image of R549: every field as read, before the range checks of R550. -/
structure StrapImage where
  ssvid : Nat
  ssid : Nat
  refclk : Nat
  pmbusAddr : Nat
  smbusAddr : Nat
  thEn : Nat
  huVfull : Nat
  huVmin : Nat
  huEff : Nat
  huPdump : Nat
  huCrated : Nat
  huItest : Nat
  vinDiv : Nat
  vinWarn : Nat
  vinReset : Nat
  opPct : Nat
  drWidth : Nat
  drDensity : Nat
  drRanks : Nat
  drMaxrate : Nat
  drRhth : Nat
  drTiming : List Nat
  nfMaxrate : Nat
  nfIf : Nat
  nfOdt : Nat
  nfSlcPfx : Nat
  nfTempFa : Nat
  nfDelta : Nat
  nfRetryFa : Nat
  deriving DecidableEq, Repr

/-- The parameter page of a chip enable (R194, R218, R222): the ONFI revision times 10, the geometry, the maximum times in
µs, the fastest rate in MT/s of the interface in use, and whether an SLC mode and a readable temperature are there. -/
structure ParamPage where
  revision : Nat
  luns : Nat
  dataBytes : Nat
  spareBytes : Nat
  planes : Nat
  blocks : Nat
  maxBad : Nat
  pagesPerBlock : Nat
  tProg : Nat
  tProgSlc : Nat
  tRead : Nat
  tReadSlc : Nat
  retryLevels : Nat
  endurance : Nat
  rateMts : Nat
  slcMode : Bool
  tempReadable : Bool
  deriving DecidableEq, Repr

/-- What NAND discovery finds at one chip enable (R221): the "ONFI" signature, the copies of the parameter page (none
for one whose CRC is wrong), the fastest rate at which training succeeds (0 when it fails at every mode), the blocks
marked bad by LUN, and the LUNs that do not answer RESET. -/
structure CeFound where
  channel : Fin 32
  ce : Fin 8
  onfi : Bool
  copies : List (Option ParamPage)
  trained : Nat
  badBlocks : List (Nat × Nat)
  deaf : List Nat
  deriving DecidableEq, Repr

/-- A die that discovery finds: its number, the parameter page of its chip enable, its blocks marked bad, and whether it
answers (R219, R221). -/
structure FoundDie where
  die : Nat
  page : ParamPage
  bad : List Nat
  answers : Bool
  deriving DecidableEq, Repr

/-- A DRAM channel as training meets it (R246, R261, R276). -/
structure DramFound where
  /-- organisation that the devices report in their mode registers: width, density in Gb, ranks -/
  width : Nat
  density : Nat
  ranks : Nat
  /-- the highest MT/s at which training succeeds, 0 for none -/
  rate : Nat
  /-- the fill reads back -/
  readsBack : Bool
  deriving DecidableEq, Repr

/-- A row of a key-array table becomes corrupt: VALUE and MASK as its bank now holds them, or its shadow (R401, R402). -/
structure KeyUpset where
  table : Nat
  pos : Nat
  value : Nat
  mask : Nat
  shadowBad : Bool
  deriving DecidableEq, Repr

/-- What the comparison of a unit's two lanes finds (R502): they agree; they differ and the repeat on the same unit
agrees; the repeat differs too, and another instance delivers the result. -/
inductive LaneCheck where
  | agree | repeatAgrees | repeatDiffers
  deriving DecidableEq, Repr

/-- What the environment shows the device during a start-up (R542, R551): the straps, the bytes of the SPI NOR that the
device only reads, what training and discovery find, and which checks fail. -/
structure StartupInput where
  /-- TESTMODE reads high: the supervisor holds the device in reset (R568) -/
  testMode : Bool
  portMode : Bool
  priorSel : Bool
  bootGoldN : Bool
  /-- bytes of the SPI NOR by address (R543); an address that is not listed reads as zero -/
  nor : List Host.Cell
  /-- slots 1 to 3 whose header and digests verify now (R547) -/
  goodSlots : List Nat
  /-- what training finds on each DRAM channel (R246, R261, R276) -/
  dram : List DramFound
  /-- the chip enables that are populated (R219, R221) -/
  ces : List CeFound
  /-- first readings of the on-die sensors, 0.25 °C units, with their codes (R486) -/
  temps : List (Nat × Int × Nat)
  brokenSensors : List Nat
  /-- units that self-test finds faulty (R504) -/
  failedUnits : List Site
  /-- key slots with wrapped copies that fail to unwrap; true when both of a slot's fail (R446) -/
  keyFaults : List (Nat × Bool)
  /-- duration of the replay when there is one (R193), ms -/
  replayMs : Nat
  /-- the block table or the map directory of the newest checkpoint does not read clean (R193) -/
  checkpointBad : Bool
  /-- the first record that cannot be applied: both copies fail CRC, SEQ breaks, or KIND is unknown (R193) -/
  tornAt : Option Nat
  /-- the seal loop is found open (R541) -/
  sealOpen : Bool
  /-- slots of the field book whose CRC is wrong: 0 and 1 in the NOR, 2 and 3 in the NAND (R533, R534) -/
  bookBad : List Nat
  /-- copies of the boot directory, 0 and 1, whose MAC does not verify (R544) -/
  dirBad : List Nat
  /-- attempts at which VCORE_PG does not rise within 10 ms (R576) -/
  pgFailures : Nat
  deriving DecidableEq, Repr

/-- The commands that Slice Admin Relay may carry (R458), decoded; `other` is any other opcode. -/
inductive Relayed where
  | identify (cns nsid cntid csi : Nat)
  | namespaceCreate (p : NsParams)
  | namespaceDelete (nsid : Nat)
  | namespaceAttach (nsid : Nat) (ctrls : List Nat)
  | namespaceDetach (nsid : Nat) (ctrls : List Nat)
  | formatNvm (nsid lbaf ses parity : Nat)
  | createCq (qid size : Nat) (pc ien : Bool) (iv : Nat)
  | createSq (qid size : Nat) (pc : Bool) (prio cqid : Nat)
  | deleteSq (qid : Nat)
  | deleteCq (qid : Nat)
  | abort (sq cid : Nat)
  | getLogPage (nsid lid lsp : Nat) (rae : Bool) (off len : Nat)
  | getFeatures (fid sel v : Nat)
  | setNumberOfQueues (nsq ncq : Nat)
  | setInterruptCoalescing (time thr : Nat)
  | setInterruptVectorConfig (iv : Nat) (cd : Bool)
  | setOtherFeature (fid : Nat)
  | programLoad (d : Cdw) (data : List Byte)
  | programUnload (d : Cdw)
  | streamReserve (nsid : Nat) (d : Cdw) (data : List Byte)
  | streamRelease (nsid : Nat) (d : Cdw)
  | extentSeal (nsid : Nat) (d : Cdw) (data : List Byte)
  | keyArrayConfigure (d : Cdw) (data : List Byte)
  | patternSetLoad (d : Cdw) (data : List Byte)
  | other (opcode : Nat)
  deriving DecidableEq, Repr

/-- An NVMe-MI request over SMBus (R105). -/
inductive MiRequest where
  | readDataStructure (typ port ctrl : Nat)
  | subsystemHealthPoll (clear : Bool)
  | controllerHealthPoll (ctrl : Nat)
  | configGet (id : Nat)
  | configSet (id value : Nat)
  | identify (port : PortId) (cns nsid cntid csi : Nat)
  | getFeatures (port : PortId) (fid sel v : Nat)
  | getLogPage (port : PortId) (nsid lid lsp off len : Nat)
  | other (opcode : Nat)
  deriving DecidableEq, Repr

/-- The source of a temperature sample: an on-die sensor, a thermistor or a NAND die (R469). -/
inductive TempSource where
  | onDie (n : Fin 64)
  | th (k : Fin 4)
  deriving DecidableEq, Repr

end Sys2Proof
end

