-- ==== Sys2Proof/Syntax.lean ====
section
/-! DEFINITION. The commands of the YN-832: one constructor for each row of spec/opcode_table.json, with the
operands its meaning needs. What the board, the media or the host shows the device (a reading, a decode outcome,
the bytes of a transfer) is an operand of the command that meets it. Host commands carry `h`, the queue entry they
came from; Opxus instructions carry the core that executes them and their guard. -/

namespace Sys2Proof

inductive Instr where
  -- regions, handshakes and the datum
  | stallSentinelExpiry (lvl : Level) (site : Site) (since : Nat)
  | fabricTransfer (arb : ArbId) (site : Site) (seen : FabricSeen)
  | arbiterGrant (arb : ArbId) (reqs : List ArbReq)
  | clockSourceSwitch
  | crystalReturn
  | datumBroadcast (upsets : List (Nat × Nat))
  | dtNowLoRead (c : CoreId) (rd : Reg)
  | dtAlarmCtlWrite (c : CoreId) (rs : Reg)
  | datumAlarmFire (task : Nat)
  | paceWindowEnd (r : RegionId) (cycles : Nat)
  | vcoreStep
  | vcoreReadbackCheck (mv : Nat) (ack : Bool)
  | baselineComputationStart (trigger : Nat)
  | baselineComputationDone
  | coreCellPowerOff (c : CoreId)
  | domainPowerGood (d : Domain)
  -- host link and queues
  | portReset (port : PortId) (kind : ResetKind)
  | sqTailDoorbell (port : PortId) (qid value : Nat)
  | cqHeadDoorbell (port : PortId) (qid value : Nat)
  | swDatumLoRead (port : PortId) (space : RegSpace) (off size : Nat)
  | ccEnable (port : PortId) (cc : Word)
  | ccDisable (port : PortId)
  | ccShutdown (port : PortId) (shn : Nat)
  | commandFetch (port : PortId) (qid cid opcode cdw10 : Nat)
  | completionPost (port : PortId) (cqid : Nat)
  | msixVectorUnmask (port : PortId) (v : Nat)
  | asyncEventPost (port : PortId)
  | createIoSubmissionQueue (h : Sub) (qid size : Nat) (pc : Bool) (prio cqid : Nat)
  | createIoCompletionQueue (h : Sub) (qid size : Nat) (pc ien : Bool) (iv : Nat)
  | deleteIoSubmissionQueue (h : Sub) (qid : Nat)
  | deleteIoCompletionQueue (h : Sub) (qid : Nat)
  | getLogPage (h : Sub) (nsid lid lsp : Nat) (rae : Bool) (off len : Nat)
  | identify (h : Sub) (cns nsid cntid csi : Nat)
  | abort (h : Sub) (sq cid : Nat)
  | setFeaturesArbitration (h : Sub) (save : Bool) (ab lpw mpw hpw : Nat)
  | setFeaturesPowerManagement (h : Sub) (save : Bool) (ps wh : Nat)
  | setFeaturesTemperatureThreshold (h : Sub) (save : Bool) (tmpsel thsel tmpth : Nat)
  | setFeaturesNumberOfQueues (h : Sub) (save : Bool) (nsq ncq : Nat)
  | setFeaturesInterruptCoalescing (h : Sub) (save : Bool) (time thr : Nat)
  | setFeaturesInterruptVectorConfig (h : Sub) (save : Bool) (iv : Nat) (cd : Bool)
  | setFeaturesAsyncEventConfig (h : Sub) (save : Bool) (v : Word)
  | setFeaturesTimestamp (h : Sub) (save : Bool) (ms : Nat)
  | setFeaturesThermalGraceTime (h : Sub) (save : Bool) (v : Word)
  | setFeaturesInterleaveGrain (h : Sub) (save : Bool) (v : Word)
  | setFeaturesScrubPeriod (h : Sub) (save : Bool) (v : Word)
  | getFeatures (h : Sub) (fid sel v : Nat)
  | asynchronousEventRequest (h : Sub)
  | namespaceCreate (h : Sub) (p : NsParams)
  | namespaceDelete (h : Sub) (nsid : Nat)
  | namespaceDeleteEffect (nsid : Nat)
  | namespaceAttach (h : Sub) (nsid : Nat) (ctrls : List Nat)
  | namespaceDetach (h : Sub) (nsid : Nat) (ctrls : List Nat)
  | firmwareImageDownload (h : Sub) (off : Nat) (data : List Byte)
  | firmwareCommit (h : Sub) (action slot : Nat)
  | firmwareCommitActivate (h : Sub) (slot : Nat)
  | activationStep
  | directiveSend (h : Sub) (nsid dtype doper dspec : Nat) (v : Word)
  | directiveReceive (h : Sub) (nsid dtype doper dspec nsr : Nat)
  | formatNvm (h : Sub) (nsid lbaf ses parity : Nat)
  | sanitizeBlockErase (h : Sub)
  | sanitizeCryptoErase (h : Sub)
  -- write path
  | flush (h : Sub) (nsid : Nat)
  | write (h : Sub) (nsid slba nlb dtype dspec : Nat) (data : List Byte)
  | writeCommit (h : Sub) (hostFault : Bool)
  | writeZeroes (h : Sub) (nsid slba nlb : Nat) (deac : Bool)
  | datasetManagement (h : Sub) (nsid : Nat) (ad : Bool) (ranges : List (Nat × Nat))
  | read (h : Sub) (nsid slba nlb : Nat)
  | verify (h : Sub) (nsid slba nlb : Nat)
  | destageStripeProgram (sb : Nat) (units : List (Nat × Nat)) (lost : List (Nat × Nat × Nat)) (xts : List (Fin 32 × LaneCheck))
  | nandProgramComplete (sb : Nat)
  | holdupMeasurementStart (v0 : Nat)
  | holdupV1Sample (v1 : Nat)
  | holdupV2Sample (v2 : Nat)
  | holdupSettleTimeout
  | bankRecharged (v : Nat)
  | vbankSample (v : Nat)
  | holdUpTest (h : Sub) (nsid : Nat)
  | vinWarnFall
  | vinWarnRise
  | powerFailWarning
  | reserveWindowClose
  | dumpComplete
  | vinRecovery
  | vinResetReached
  | supervisorRestart (perstAsserted : Bool)
  | streamReserve (h : Sub) (nsid : Nat) (d : Cdw) (data : List Byte)
  | streamRelease (h : Sub) (nsid : Nat) (d : Cdw)
  -- custody chain and seals
  | chainLinkForm (nsid : Nat) (laneMismatch : Bool)
  | monumentTimerExpiry (nsid : Nat)
  | monumentWrite (nsid : Nat) (engineFault : Bool)
  | rangeDigest (h : Sub) (nsid : Nat) (d : Cdw)
  | extentSeal (h : Sub) (nsid : Nat) (d : Cdw) (data : List Byte)
  | sealPointFix (nsid : Nat)
  | sealManifestComplete (nsid : Nat)
  | extentUnseal (h : Sub) (nsid : Nat) (d : Cdw) (data : List Byte) (rechecks : List (Nat × Bool))
  -- flash translation
  | mapPageLoadComplete (nsid page : Nat) (lost : Option Nat)
  | mapPageWriteback (nsid page : Nat)
  | mapPageReconstruct (nsid page : Nat)
  | journalRecordDurable (seq : Nat)
  | checkpointStart
  | reclaimSourceSelect (group : Nat)
  | unitRelocate (nsid unit dstDie dstPpn : Nat) (readable matches1 matches2 : Bool)
  | sourceErase (sb : Nat)
  | wearLevelMove (src : Nat)
  | dieRetire (die cause : Nat)
  | redundancyRebuildComplete (die : Nat)
  -- NAND channels
  | pageReadComplete (die blk : Nat) (nsid unit issued : Nat) (cws : List CwRead) (membersLost : Nat) (xts : LaneCheck)
  | readRebuildTimeout (die : Nat) (nsid unit issued membersLost : Nat)
  | mediaScrubRead (sb : Nat) (cws : List CwRead) (membersLost : Nat)
  | programFail (die sb page : Nat)
  | eraseFail (die sb : Nat)
  | dieBusyTimeout (die : Nat)
  | flashChannelFail (ch : Fin 32)
  | channelAdopt (ch : Fin 32) (badChecks : List Nat)
  | channelReturn (ch : Fin 32)
  | nandTempSample (die : Nat) (t : Option Int)
  -- DRAM
  | dramAccessIssue (ch : Fin 8) (sub : Fin 2) (arrivals : List DramRequest) (busy : List Nat) (flips : List (Nat × Byte))
      (landed : Option (Nat × Nat))
  | rowDisturbThreshold (ch : Fin 8) (bankKey row : Nat) (drfm : Bool)
  | refreshWindowStart (ch : Fin 8)
  | dramRefresh (ch : Fin 8) (bankKey : Nat)
  | mr4Poll (ch : Fin 8) (twice : Bool)
  | zqCalibration (ch : Fin 8) (rank : Nat)
  | dqsOscillatorRead (ch : Fin 8) (drift : Bool)
  | dqsRetrain (ch : Fin 8) (ok : Bool)
  | setUFill (mib : Nat)
  | sramSweep (site : Site) (lvl : Level) (addr : Nat) (syndrome : BitVec 7) (addressBits : Nat) (use : SramUse)
  | traverseVisit (ch : Fin 8) (flips : List (Nat × Byte)) (content : BurstContent)
  | revisitRewrite (ch : Fin 8) (addr : Nat) (content : BurstContent)
  | dramChannelFail (ch : Fin 8) (cause : Nat)
  | setSReformComplete
  -- Opxus instructions
  | opAdd (c : CoreId) (g : Guard) (d a b : Reg)
  | opSub (c : CoreId) (g : Guard) (d a b : Reg)
  | opAnd (c : CoreId) (g : Guard) (d a b : Reg)
  | opOr (c : CoreId) (g : Guard) (d a b : Reg)
  | opXor (c : CoreId) (g : Guard) (d a b : Reg)
  | opAndn (c : CoreId) (g : Guard) (d a b : Reg)
  | opShl (c : CoreId) (g : Guard) (d a b : Reg)
  | opShr (c : CoreId) (g : Guard) (d a b : Reg)
  | opSar (c : CoreId) (g : Guard) (d a b : Reg)
  | opRor (c : CoreId) (g : Guard) (d a b : Reg)
  | opMul (c : CoreId) (g : Guard) (d a b : Reg)
  | opMulh (c : CoreId) (g : Guard) (d a b : Reg)
  | opMulhu (c : CoreId) (g : Guard) (d a b : Reg)
  | opDiv (c : CoreId) (g : Guard) (d a b : Reg)
  | opDivu (c : CoreId) (g : Guard) (d a b : Reg)
  | opRem (c : CoreId) (g : Guard) (d a b : Reg)
  | opRemu (c : CoreId) (g : Guard) (d a b : Reg)
  | opMin (c : CoreId) (g : Guard) (d a b : Reg)
  | opMax (c : CoreId) (g : Guard) (d a b : Reg)
  | opMinu (c : CoreId) (g : Guard) (d a b : Reg)
  | opMaxu (c : CoreId) (g : Guard) (d a b : Reg)
  | opClz (c : CoreId) (g : Guard) (d a : Reg)
  | opPopc (c : CoreId) (g : Guard) (d a : Reg)
  | opBfxReg (c : CoreId) (g : Guard) (d a b : Reg)
  | opBfxuReg (c : CoreId) (g : Guard) (d a b : Reg)
  | opBfiReg (c : CoreId) (g : Guard) (d a b : Reg)
  | opPermr (c : CoreId) (g : Guard) (d a b : Reg)
  | opBfx (c : CoreId) (g : Guard) (d a : Reg) (p w1 : BitVec 5)
  | opBfxu (c : CoreId) (g : Guard) (d a : Reg) (p w1 : BitVec 5)
  | opBfi (c : CoreId) (g : Guard) (d a : Reg) (p w1 : BitVec 5)
  | opPerm (c : CoreId) (g : Guard) (d a : Reg) (sel : BitVec 12)
  | opAddi (c : CoreId) (g : Guard) (d a : Reg) (imm : BitVec 12)
  | opAndi (c : CoreId) (g : Guard) (d a : Reg) (imm : BitVec 12)
  | opOri (c : CoreId) (g : Guard) (d a : Reg) (imm : BitVec 12)
  | opXori (c : CoreId) (g : Guard) (d a : Reg) (imm : BitVec 12)
  | opShli (c : CoreId) (g : Guard) (d a : Reg) (sh : BitVec 5)
  | opShri (c : CoreId) (g : Guard) (d a : Reg) (sh : BitVec 5)
  | opSari (c : CoreId) (g : Guard) (d a : Reg) (sh : BitVec 5)
  | opSli (c : CoreId) (g : Guard) (d a : Reg) (imm : BitVec 12)
  | opCmp (c : CoreId) (g : Guard) (cc : BitVec 4) (mode : BitVec 2) (t : PReg) (a b : Reg)
  | opCmpi (c : CoreId) (g : Guard) (cc : BitVec 4) (mode : BitVec 2) (t : PReg) (a : Reg) (imm : BitVec 12)
  | opPand (c : CoreId) (g : Guard) (pd pa : PReg) (na : Bool) (pb : PReg) (nb : Bool)
  | opPor (c : CoreId) (g : Guard) (pd pa : PReg) (na : Bool) (pb : PReg) (nb : Bool)
  | opPxor (c : CoreId) (g : Guard) (pd pa : PReg) (na : Bool) (pb : PReg) (nb : Bool)
  | opPmov (c : CoreId) (g : Guard) (pd pa : PReg) (na : Bool)
  | opLdb (c : CoreId) (g : Guard) (d a : Reg) (imm : BitVec 12)
  | opLdbu (c : CoreId) (g : Guard) (d a : Reg) (imm : BitVec 12)
  | opLdh (c : CoreId) (g : Guard) (d a : Reg) (imm : BitVec 12)
  | opLdhu (c : CoreId) (g : Guard) (d a : Reg) (imm : BitVec 12)
  | opLdw (c : CoreId) (g : Guard) (d a : Reg) (imm : BitVec 12)
  | opStb (c : CoreId) (g : Guard) (d a : Reg) (imm : BitVec 12)
  | opSth (c : CoreId) (g : Guard) (d a : Reg) (imm : BitVec 12)
  | opStw (c : CoreId) (g : Guard) (d a : Reg) (imm : BitVec 12)
  | storePerform (c : CoreId)
  | opIn (c : CoreId) (g : Guard) (d a : Reg) (imm : BitVec 12)
  | opOut (c : CoreId) (g : Guard) (d a : Reg) (imm : BitVec 12)
  | opMfs (c : CoreId) (g : Guard) (d : Reg) (n : BitVec 12)
  | opMts (c : CoreId) (g : Guard) (a : Reg) (n : BitVec 12)
  | opPush (c : CoreId) (g : Guard) (a : Reg)
  | opPop (c : CoreId) (g : Guard) (d : Reg)
  | opBr (c : CoreId) (g : Guard) (off : BitVec 22)
  | opCall (c : CoreId) (g : Guard) (off : BitVec 22)
  | opJi (c : CoreId) (g : Guard) (a : Reg)
  | opCalli (c : CoreId) (g : Guard) (a : Reg)
  | opRet (c : CoreId) (g : Guard)
  | opWait (c : CoreId) (g : Guard) (d a : Reg)
  | opWaitAll (c : CoreId) (g : Guard) (d a : Reg)
  | opSigev (c : CoreId) (g : Guard) (d a b : Reg)
  | opYield (c : CoreId) (g : Guard)
  | opFence (c : CoreId) (g : Guard)
  | opHalt (c : CoreId) (g : Guard) (a : Reg)
  | opTret (c : CoreId) (g : Guard)
  | opTrap (c : CoreId) (g : Guard) (imm : BitVec 12)
  | stepBudgetExhausted (c : CoreId)
  -- tasks, flows and pools
  | tkClrfWrite (c : CoreId) (rs : Reg)
  | spGoRead (c : CoreId) (rd : Reg)
  | taskDispatch (r : RegionId)
  | taskPreempt (c : CoreId)
  | taskMigrateLoad (task : Nat)
  | taskMigratePenumbra (task : Nat)
  | taskRelease (task : Nat)
  | releaseComplete (task : Nat)
  | plCreateRead (c : CoreId) (rd : Reg)
  | plDestroyWrite (c : CoreId) (rs : Reg)
  | plAllocRead (c : CoreId) (rd : Reg) (n : Fin 64)
  | plFreeWrite (c : CoreId) (rs : Reg)
  | plShareWrite (c : CoreId) (rs : Reg)
  | plQueryWrite (c : CoreId) (rs : Reg)
  -- programs, invocation and engines
  | programLoad (h : Sub) (d : Cdw) (data : List Byte)
  | programUnload (h : Sub) (d : Cdw)
  | invoke (h : Sub) (d : Cdw) (data : List Byte)
  | svcResult (c : CoreId)
  | svcOutbuf (c : CoreId)
  | svcLbaout (c : CoreId)
  | dmaGoRead (c : CoreId) (rd : Reg)
  | dmaComplete (task ticket : Nat) (lanes : LaneCheck)
  | cpGoRead (c : CoreId) (rd : Reg)
  | compressionComplete (task ticket : Nat) (lanes : LaneCheck)
  | fsGoRead (c : CoreId) (rd : Reg)
  | filterScanComplete (task : Nat) (engine : Fin 32) (lanes : LaneCheck)
  | engineStatRead (c : CoreId) (rd : Reg) (port : BitVec 12)
  | scan (h : Sub) (nsid : Nat) (d : Cdw) (data : List Byte)
  | scanUnitFilter (h : Sub)
  | filterSetLoad (unit set : Nat)
  | resultRead (h : Sub) (d : Cdw)
  -- key arrays and pattern sets (an upset: a key of the batch, the chain position whose bank row mismatches its
  -- shadow when it wins, and whether the reissued lookup mismatches again, R401)
  | keyTableCreate (h : Sub) (d : Cdw) (data : List Byte)
  | keyTableDestroy (h : Sub) (d : Cdw) (data : List Byte)
  | keyTableClear (h : Sub) (d : Cdw) (data : List Byte)
  | keyLookup (h : Sub) (d : Cdw) (data : List Byte) (upsets : List (Nat × Bool × KeyUpset))
  | keyInsert (h : Sub) (d : Cdw) (data : List Byte)
  | keyDelete (h : Sub) (d : Cdw) (data : List Byte)
  | moverShift (table : Nat)
  | holeRebalance (table : Nat)
  | bankShadowSweep (bank : Fin 32) (upsets : List KeyUpset)
  | kaLookRead (c : CoreId) (rd : Reg) (upsets : List (Nat × Bool × KeyUpset))
  | kaInsertRead (c : CoreId) (rd : Reg)
  | kaDeleteRead (c : CoreId) (rd : Reg)
  | patternSetLoad (h : Sub) (d : Cdw) (data : List Byte)
  | patternSetRemove (h : Sub) (d : Cdw)
  -- digest engine and key store
  | dgOpen (c : CoreId) (alg : BitVec 4) (hmac tokey : Bool) (flag : BitVec 5)
  | dgFinal (c : CoreId) (alg : BitVec 4) (hmac tokey : Bool) (flag : BitVec 5)
  | digestFinalReady (r : RegionId) (ctx : Fin 8)
  | dgClose (c : CoreId) (alg : BitVec 4) (hmac tokey : Bool) (flag : BitVec 5)
  | dgSave (c : CoreId) (alg : BitVec 4) (hmac tokey : Bool) (flag : BitVec 5)
  | dgRestore (c : CoreId) (alg : BitVec 4) (hmac tokey : Bool) (flag : BitVec 5)
  | dgEraseKey (c : CoreId) (alg : BitVec 4) (hmac tokey : Bool) (flag : BitVec 5)
  | dgDataWrite (c : CoreId) (rs : Reg)
  | digestBlockAbsorbed (r : RegionId) (ctx : Fin 8) (lanes : LaneCheck)
  | dgResultRead (c : CoreId) (rd : Reg) (n : Fin 16)
  | derivedKeyDurable (slot : Nat)
  | digestSessionEvict (session : Nat)
  | digestWhole (h : Sub) (d : Cdw) (data : List Byte)
  | digestStart (h : Sub) (d : Cdw) (data : List Byte)
  | digestContinue (h : Sub) (d : Cdw) (data : List Byte)
  | digestFinal (h : Sub) (d : Cdw) (data : List Byte)
  | digestAbandon (h : Sub) (d : Cdw)
  | digestEraseKeySlot (h : Sub) (d : Cdw)
  | keyCopyErase (slot : Nat)
  | ksGenerate (c : CoreId) (owner : BitVec 9)
  | ksErase (c : CoreId)
  -- tenant slices
  | sliceCreate (h : Sub) (d : Cdw) (data : List Byte)
  | sliceDestroy (h : Sub) (d : Cdw)
  | sliceDramFillComplete (mib : Nat)
  | sliceAdminRelay (h : Sub) (d : Cdw) (cmd : Relayed)
  | sliceAdminRelayRead (h : Sub) (d : Cdw) (cmd : Relayed)
  | pasidEnableChange (port : PortId) (on : Bool)
  | stMap (c : CoreId)
  | stUnmap (c : CoreId)
  | stUnmapSlice (c : CoreId)
  -- temperature, supply and power states
  | sensorSample (src : TempSource) (t : Int) (code : Nat)
  | thermalGraceExpiry
  | enforcementLevelRise
  | enforcementLevelFall
  | t2BlockStopTimeout (r : RegionId) (b : Fin 4)
  | sensorSelfCheck (failed : List Nat)
  | vinConversion (v : Nat)
  | vinOvervoltage (v : Nat)
  | powerStateExit (port : PortId)
  -- faults and live service
  | queueManagerMismatch
  | supervisorVoteMismatch (copy : Fin 3)
  | eclipseBegin (r : RegionId) (cause : Nat)
  | penumbraEnd (r : RegionId)
  | selfTest (r : RegionId) (failed : List Site)
  | relight (r : RegionId)
  | regionLit (r : RegionId)
  | svEclipse (c : CoreId) (site : BitVec 16)
  | svRelight (c : CoreId) (site : BitVec 16)
  | svRecord (c : CoreId) (cls : BitVec 8) (site : BitVec 16)
  | svRetire (c : CoreId) (site : BitVec 16)
  | trDataWrite (c : CoreId) (rs : Reg)
  | pmbAlert (statusWord : Nat)
  -- field book and physical presence
  | operatingSecond
  | fieldBookFlush (cause : Nat)
  | fieldBookClear (h : Sub) (nsid : Nat) (d : Cdw)
  | presenceArm (h : Sub) (nsid : Nat) (d : Cdw)
  | identityKeyReset (h : Sub) (nsid : Nat) (d : Cdw)
  | debugPortEnable (h : Sub) (nsid : Nat) (d : Cdw)
  | presenceClose (h : Sub) (nsid : Nat) (d : Cdw)
  | presenceWindowOpen (lowSince : Nat)
  | armingPeriodExpiry
  | presenceWindowExpiry
  | serviceNChange (low : Bool)
  | sealLoopCheck (b : Bool)
  -- start-up and power
  | vaonPowerGood
  | vaonLoss
  | startupBegin (inp : StartupInput)
  | vcorePgTimeout
  | nvmeMiRequest (r : MiRequest)
  | registerWrite (port : PortId) (space : RegSpace) (off size : Nat) (v : Nat)
  | linkUp (port : PortId)
  | coalescingTimeExpiry (port : PortId) (v : Nat)
  | eraseComplete (sb : Nat)
  | fieldBookFlushComplete
  | supervisorResyncComplete (copy : Fin 3) (ok : Bool)
  | queueManagerTestComplete (ok : Bool)
  | recoveryComparatorChange (above : Bool)
  deriving DecidableEq, Repr

end Sys2Proof
end

