-- ==== Sys2Proof/Decode.lean ====
section
/-! DEFINITION. The command a word of the opcode table spells. No row of the table gives bits: a command of this
block is an event with operands, not a word. -/

namespace Sys2Proof

/-- No row of spec/opcode_table.json gives a pattern of bits, so no word spells a command. -/
def decodeTableWord (_nbits _w : Nat) : Option Instr := none

end Sys2Proof
end

