-- ==== Sys2Proof/Config.lean ====
section
/-! DEFINITION. What an implementation fixes, and the free values: constants with no body, of which no proof can
know a value. Each is named in a row of notes/assumptions. -/

namespace Sys2Proof.Config

/-- Nominal benchmark-ring cycles of a region in one window, held in fuses (R32). -/
opaque nominalCycles : Nat → Nat

/-- The 16 characters of the serial number (R69, R75). -/
opaque serial : List Byte

/-- True for a YN-832-V (R1, R70). -/
opaque vehicleGrade : Bool

/-- Die stepping (R70). -/
opaque step : Nat

/-- The PCI-SIG identifier of Vyonata (R62). -/
opaque vendorId : Nat

/-- The revision ID beside the class code, and the bits of the PCI Express capabilities that the spec leaves to PCIe:
Device Capabilities and Link Capabilities (R62, R63). -/
opaque pciRevision : Nat
opaque pciDeviceCaps : Nat
opaque pciLinkCaps : Nat

/-- CRTO, the controller's ready time-outs, which R71 and R72 do not state. -/
opaque crto : Nat

/-- The DRBG's n-th 64-byte output (R148, R443). -/
opaque drbg : Nat → List Byte

/-- ECDSA P-256 over a 32-byte digest with the private key of slot 0: r then s, 64 bytes (R159, R167). -/
opaque ecdsaSign : List Byte → List Byte → List Byte

/-- ECDSA P-256 verification of a public key, a digest and a signature (R355, R356). -/
opaque ecdsaVerify : List Byte → List Byte → List Byte → Bool

/-- ECDSA P-384 verification under the Vyonata firmware key of a digest and a signature (R545). -/
opaque firmwareSigOk : List Byte → List Byte → Bool

/-- The 32-bit form, in the service window, of a firmware version of 8 characters (R69). -/
opaque versionWord : List Byte → Nat

/-- Bits 31:1 of an entry of the Commands Supported and Effects log, by its dword (R87, R90). -/
opaque commandEffects : Nat → Nat

/-- FR and BUILD of the golden image (R543, R545). -/
opaque goldenFr : List Byte
opaque goldenBuild : Nat

/-- The certificate of an identity key, given the key and the key that signs it (R164, R539). -/
opaque certificate : List Byte → List Byte → List Byte

/-- The identity key of manufacture and its certificate (R164, R443). -/
opaque identityKey : List Byte
opaque identityCertificate : List Byte

/-- MiB of set U that the images of the firmware take (R249). -/
opaque firmwareMib : Nat

/-- Bytes of an NVMe-MI response that NVMe-MI leaves to the device, by kind of response and place (R105). -/
opaque miByte : Nat → Nat → Byte

/-- The NGUID given to the n-th namespace created (R76). -/
opaque nguid : Nat → List Byte

/-- Compressed output for an operation, a level and an input (R378). -/
opaque compressed : Nat → Nat → List Byte → List Byte

/-- The status (0 for success) and the output of a decompression, for an operation and an input (R378). -/
opaque decompressed : Nat → List Byte → Nat × List Byte

/-- A byte the spec leaves undefined (R167, R376), one for each draw. -/
opaque freeByte : Nat → Byte

/-- A number the spec leaves open, one for each draw: a media place chosen by an unstated rule (R184). -/
opaque freeNat : Nat → Nat

/-- Core time of garbage collection, of traverse and media scrub, and of the dump, million instructions/s, for a
number of cores and the period of traverse in hours (R43, R48). -/
opaque coreHoldback : Nat → Nat → Nat

/-- Flash program share held back for the dump's commit of the write buffer, MB/s, for a number of dies (R43). -/
opaque dumpFlash : Nat → Nat

/-- DRAM share held back for the dump's commit of the write buffer, MB/s, for the capacity in GiB (R43). -/
opaque dumpDram : Nat → Nat

/-- AUX0 of a class 0x04 entry for rank × 2 + subchannel and lane group (R522). -/
opaque lanePack : Nat → Nat → Nat

/-- Trace words that a ring of 64 KiB holds with their stamps (R516). -/
opaque traceWords : Nat

/-- Write bandwidth, MB/s, that what is left of the core term and the key-array term support (R43). -/
opaque writeSupport : Nat → Nat → Nat

/-- Baseline transfer rate of an arbiter, MB/s, and the grants it gives in a second: by level, 2 a region's, 3 the
chip's, 4 the front end's (R42). -/
opaque arbiterRate : Nat → Nat
opaque arbiterGrants : Nat → Nat

/-- Pace, in 0.1 %, that the admitted deadline work requires, for the bandwidth admitted in kB/s and the admission
capacity in MB/s (R37). -/
opaque requiredPace : Nat → Nat → Nat

/-- Deadline of a step of the dump (0), of a Hold-up Test (1) or of firmware activation (2) for the datum at which that
operation began (R49). -/
opaque stepDeadline : Nat → Nat → Nat

/-- The bytes after the header of a journal record, by KIND and SEQ, whose layout R189 leaves open. -/
opaque recordContent (kind seq : Nat) : List Byte

/-- The Reed-Solomon product of the coefficient of a member of a stripe with a byte (R195 gives the field and no
coefficients). -/
opaque rsTerm (member : Nat) (b : Byte) : Byte

/-- Pages of a block in SLC mode, by its native pages (R126, R207). -/
opaque slcPages (pages : Nat) : Nat

/-- Column of bit i of an SRAM word, 39 stored bits and then the address bits, which R267 leaves open but for being
distinct and of odd weight. -/
opaque sramColumn (i : Nat) : BitVec 7

/-- The AES-256-XTS encryption of a logical block under a key, with its LBA as tweak (R149; IEEE 1619, PRESUMED,
assumption 153). -/
opaque xtsEncrypt (key : List Byte) (lba : Nat) (data : List Byte) : List Byte

/-- Index of the unit descriptor of a buffered unit (R184). -/
opaque descriptorIndex (nsid u : Nat) : Nat

end Sys2Proof.Config
end

