-- ==== Sys2Proof/Machine/Tab.lean ====
section
/-! DEFINITION. Tables keyed by a number (sorted lists of pairs), sparse memory in canonical form, and the small
helpers on bytes that the layouts of the spec use. -/

namespace Sys2Proof

/-- A table: entries with strictly rising keys. -/
abbrev Tab (α : Type) := List (Nat × α)


/-- The entry of key `k`. -/
def Tab.get? {α : Type} : Tab α → Nat → Option α
  | [], _ => none
  | (j, v) :: t, k => if j = k then some v else Tab.get? t k

/-- The entry of key `k`, or the default `d`. -/
def Tab.getD {α : Type} (t : Tab α) (k : Nat) (d : α) : α := (Tab.get? t k).getD d

/-- Writes the entry of key `k`. -/
def Tab.set {α : Type} : Tab α → Nat → α → Tab α
  | [], k, v => [(k, v)]
  | (j, w) :: t, k, v =>
    if j = k then (k, v) :: t
    else if k < j then (k, v) :: (j, w) :: t
    else (j, w) :: Tab.set t k v

/-- Removes the entry of key `k`. -/
def Tab.erase {α : Type} : Tab α → Nat → Tab α
  | [], _ => []
  | (j, w) :: t, k => if j = k then Tab.erase t k else (j, w) :: Tab.erase t k

/-- True when key `k` has an entry. -/
def Tab.has {α : Type} (t : Tab α) (k : Nat) : Bool := (Tab.get? t k).isSome

/-- Applies `f` to the entry of key `k`, when there is one. -/
def Tab.modify {α : Type} (t : Tab α) (k : Nat) (f : α → α) : Tab α :=
  match Tab.get? t k with
  | some v => Tab.set t k (f v)
  | none => t

/-- The least number below `n`, from `i` on, that has no entry. -/
def Tab.lowestFree {α : Type} (t : Tab α) (i : Nat) : Nat → Option Nat
  | 0 => none
  | n + 1 => if Tab.has t i then Tab.lowestFree t (i + 1) n else some i


namespace Machine

/-- Sparse memory: the bytes that are not zero, by rising address. -/
abbrev Memory := List Host.Cell

/-- What an address that is not listed reads as (R253, R371: fills write zeros). -/
def Memory.blank : Byte := 0

/-- The byte at an address. -/
def Memory.read (m : Memory) (a : Nat) : Byte := (Tab.get? m a).getD Memory.blank

/-- Writes one byte; a byte equal to the blank one is not listed. -/
def Memory.write (m : Memory) (a : Nat) (b : Byte) : Memory :=
  if b = Memory.blank then Tab.erase m a else Tab.set m a b

/-- Every address of the list lies above `lo`, addresses rise, and no byte is blank. -/
def Memory.wfFrom : Nat → Memory → Bool
  | _, [] => true
  | lo, (a, b) :: t => decide (lo ≤ a) && decide (b ≠ Memory.blank) && Memory.wfFrom (a + 1) t

/-- The canonical form: addresses strictly rising, no entry equal to what an unlisted address reads as. -/
def Memory.wf (m : Memory) : Bool := Memory.wfFrom 0 m

/-- `n` bytes from address `a`. -/
def Memory.readBytes (m : Memory) (a : Nat) : Nat → List Byte
  | 0 => []
  | n + 1 => m.read a :: Memory.readBytes m (a + 1) n

/-- Writes bytes from address `a` on. -/
def Memory.writeBytes (m : Memory) (a : Nat) : List Byte → Memory
  | [] => m
  | b :: bs => Memory.writeBytes (m.write a b) (a + 1) bs

/-- The number that bytes spell, least significant first (R7). -/
def ofLe : List Byte → Nat
  | [] => 0
  | b :: bs => b.toNat + 256 * ofLe bs

/-- The `n` bytes of a number, least significant first (R7). -/
def toLe : Nat → Nat → List Byte
  | 0, _ => []
  | n + 1, x => BitVec.ofNat 8 x :: toLe n (x / 256)

/-- The `n` bytes of a number, most significant first. -/
def toBe (n x : Nat) : List Byte := (toLe n x).reverse

/-- The number that bytes spell, most significant first. -/
def ofBe (bs : List Byte) : Nat := ofLe bs.reverse

/-- The field of `n` bytes at offset `o`, little-endian. -/
def field (bs : List Byte) (o n : Nat) : Nat := ofLe ((bs.drop o).take n)

/-- The bytes at offset `o`, `n` of them. -/
def slice (bs : List Byte) (o n : Nat) : List Byte := (bs.drop o).take n

/-- True when the `n` bytes at offset `o` are all zero. -/
def zeroAt (bs : List Byte) (o n : Nat) : Bool := (slice bs o n).all (· == 0)

/-- `n` zero bytes. -/
def zeros (n : Nat) : List Byte := List.replicate n 0

/-- A byte list cut or filled with zeros to `n` bytes. -/
def fit (n : Nat) (bs : List Byte) : List Byte := bs.take n ++ zeros (n - bs.length)

/-- Text as bytes. -/
def ascii (t : String) : List Byte := t.toList.map fun c => BitVec.ofNat 8 c.toNat

/-- Text filled with spaces to `n` bytes. -/
def asciiPad (n : Nat) (t : String) : List Byte :=
  (ascii t ++ List.replicate (n - t.length) (0x20 : Byte)).take n

/-- Bits hi down to lo of a number. -/
def bits (x hi lo : Nat) : Nat := x / 2 ^ lo % 2 ^ (hi + 1 - lo)

/-- Bit i of a number. -/
def bit (x i : Nat) : Bool := bits x i i = 1

/-- 1 for true, shifted to bit i. -/
def flagBit (b : Bool) (i : Nat) : Nat := if b then 2 ^ i else 0

/-- Addition that stops at the largest `n`-bit number. -/
def satAdd (n a b : Nat) : Nat := min (2 ^ n - 1) (a + b)

/-- Division rounded up. -/
def ceilDiv (a b : Nat) : Nat := (a + b - 1) / b

/-- Places `bs` at offset `o` of a page, keeping the page's length. -/
def patch (page : List Byte) (o : Nat) (bs : List Byte) : List Byte :=
  (page.take o ++ bs ++ page.drop (o + bs.length)).take page.length

/-- A page of `n` zero bytes with fields placed in it. -/
def layout (n : Nat) (fs : List (Nat × List Byte)) : List Byte :=
  fs.foldl (fun p f => patch p f.1 f.2) (zeros n)

/-- The entries of a list with their positions. -/
def indexed {α : Type} (l : List α) : List (Nat × α) := (List.range l.length).zip l

end Machine
end Sys2Proof
end

