-- ==== Sys2Proof/Machine/Crypto.lean ====
section
/-! DEFINITION. CRC-32C (R533, R549), the hash algorithms of R421 (FIPS 180-4, FIPS 202) and HMAC (FIPS 198-1).
Their constants are outside the spec's text: it names the standards. -/

namespace Sys2Proof.Machine

/-! ### CRC-32C -/

/-- One bit of the reflected CRC-32C. -/
def crcBit (c : BitVec 32) : BitVec 32 := if c.getLsbD 0 then (c >>> 1) ^^^ 0x82F63B78#32 else c >>> 1

/-- One byte of the CRC. -/
def crcByte (c : BitVec 32) (b : Byte) : BitVec 32 :=
  crcBit (crcBit (crcBit (crcBit (crcBit (crcBit (crcBit (crcBit (c ^^^ b.zeroExtend 32))))))))

/-- CRC-32C of a byte string. -/
def crc32c (bs : List Byte) : BitVec 32 := ~~~ (bs.foldl crcByte 0xFFFFFFFF#32)

/-! ### SHA-2 -/

/-- Four words of 64 bits that one numeral spells, the first highest. -/
def quad (x : Nat) : List Nat := [x / 2 ^ 192, x / 2 ^ 128 % 2 ^ 64, x / 2 ^ 64 % 2 ^ 64, x % 2 ^ 64]

/-- Initial value of SHA-512. -/
def shaInit512 : List Nat :=
  [0x6a09e667f3bcc908bb67ae8584caa73b3c6ef372fe94f82ba54ff53a5f1d36f1,
   0x510e527fade682d19b05688c2b3e6c1f1f83d9abfb41bd6b5be0cd19137e2179].flatMap quad

/-- Initial value of SHA-384. -/
def shaInit384 : List Nat :=
  [0xcbbb9d5dc1059ed8629a292a367cd5079159015a3070dd17152fecd8f70e5939,
   0x67332667ffc00b318eb44a8768581511db0c2e0d64f98fa747b5481dbefa4fa4].flatMap quad

/-- Initial value of SHA-256: FIPS 180-4 takes it from the same square roots, at 32 bits. -/
def shaInit256 : List Nat := shaInit512.map (· / 2 ^ 32)

/-- Round constants of SHA-384 and SHA-512. -/
def shaK512 : List Nat :=
  ([0x428a2f98d728ae227137449123ef65cdb5c0fbcfec4d3b2fe9b5dba58189dbbc,
    0x3956c25bf348b53859f111f1b605d019923f82a4af194f9bab1c5ed5da6d8118,
    0xd807aa98a303024212835b0145706fbe243185be4ee4b28c550c7dc3d5ffb4e2,
    0x72be5d74f27b896f80deb1fe3b1696b19bdc06a725c71235c19bf174cf692694,
    0xe49b69c19ef14ad2efbe4786384f25e30fc19dc68b8cd5b5240ca1cc77ac9c65,
    0x2de92c6f592b02754a7484aa6ea6e4835cb0a9dcbd41fbd476f988da831153b5,
    0x983e5152ee66dfaba831c66d2db43210b00327c898fb213fbf597fc7beef0ee4,
    0xc6e00bf33da88fc2d5a79147930aa72506ca6351e003826f142929670a0e6e70,
    0x27b70a8546d22ffc2e1b21385c26c9264d2c6dfc5ac42aed53380d139d95b3df,
    0x650a73548baf63de766a0abb3c77b2a881c2c92e47edaee692722c851482353b] ++
   [0xa2bfe8a14cf10364a81a664bbc423001c24b8b70d0f89791c76c51a30654be30,
    0xd192e819d6ef5218d69906245565a910f40e35855771202a106aa07032bbd1b8,
    0x19a4c116b8d2d0c81e376c085141ab532748774cdf8eeb9934b0bcb5e19b48a8,
    0x391c0cb3c5c95a634ed8aa4ae3418acb5b9cca4f7763e373682e6ff3d6b2b8a3,
    0x748f82ee5defb2fc78a5636f43172f6084c87814a1f0ab728cc702081a6439ec,
    0x90befffa23631e28a4506cebde82bde9bef9a3f7b2c67915c67178f2e372532b,
    0xca273eceea26619cd186b8c721c0c207eada7dd6cde0eb1ef57d4f7fee6ed178,
    0x06f067aa72176fba0a637dc5a2c898a6113f9804bef90dae1b710b35131c471b,
    0x28db77f523047d8432caab7b40c724933c9ebe0a15c9bebc431d67c49c100d4c,
    0x4cc5d4becb3e42b6597f299cfc657e2a5fcb6fab3ad6faec6c44198c4a475817]).flatMap quad

/-- Round constants of SHA-256: the same cube roots, at 32 bits. -/
def shaK256 : List Nat := (shaK512.take 64).map (· / 2 ^ 32)

/-- Three amounts: two rotations, and a third one that a Σ rotates by and a σ shifts by. -/
abbrev Turns := Nat × Nat × Nat

/-- What a SHA-2 variant turns its words by: Σ of the working variables `a` and `e`, σ of the words 15 and 2 back. -/
structure ShaTurns where
  upA : Turns
  upE : Turns
  back15 : Turns
  back2 : Turns

/-- SHA-256. -/
def shaTurns256 : ShaTurns := ⟨(2, 13, 22), (6, 11, 25), (7, 18, 3), (17, 19, 10)⟩

/-- SHA-384 and SHA-512. -/
def shaTurns512 : ShaTurns := ⟨(28, 34, 39), (14, 18, 41), (1, 8, 7), (19, 61, 6)⟩

/-- The two rotations of `x`, with what the third amount makes of it. -/
def shaMix {w : Nat} (n : Turns) (third : BitVec w) (x : BitVec w) : BitVec w :=
  third ^^^ x.rotateRight n.1 ^^^ x.rotateRight n.2.1

/-- Σ. -/
def shaUp {w : Nat} (n : Turns) (x : BitVec w) : BitVec w := shaMix n (x.rotateRight n.2.2) x

/-- σ. -/
def shaLow {w : Nat} (n : Turns) (x : BitVec w) : BitVec w := shaMix n (x >>> n.2.2) x

/-- `n` further words of the message schedule, put before the words so far, newest first. -/
def shaExtend {w : Nat} (r : ShaTurns) : Nat → List (BitVec w) → List (BitVec w)
  | 0, ws => ws
  | n + 1, ws =>
    let back := fun i : Nat => ws.getD (i - 1) 0
    shaExtend r n ((back 16 + back 7 + shaLow r.back15 (back 15) + shaLow r.back2 (back 2)) :: ws)

/-- Each bit of `x` selects `y` (one) or `z` (zero). -/
def bitSelect {w : Nat} (x y z : BitVec w) : BitVec w := z ^^^ (x &&& (y ^^^ z))

/-- What most of three words hold, bit by bit. -/
def bitMajority {w : Nat} (x y z : BitVec w) : BitVec w := bitSelect (x ^^^ y) z y

/-- One round on the eight working variables `a` to `h`, with the sum of its constant and its word. -/
def shaRound {w : Nat} (r : ShaTurns) (v : List (BitVec w)) (kw : BitVec w) : List (BitVec w) :=
  match v with
  | [a, b, c, d, e, f, g, h] =>
    let x := kw + h + bitSelect e f g + shaUp r.upE e
    [x + bitMajority a b c + shaUp r.upA a, a, b, c, x + d, e, f, g]
  | v => v

/-- The words of a block, big-endian. -/
def shaWords (w : Nat) : Nat → List Byte → List (BitVec w)
  | 0, _ => []
  | n + 1, bs => BitVec.ofNat w (ofBe (bs.take (w / 8))) :: shaWords w n (bs.drop (w / 8))

/-- The compression function on one block. -/
def shaCompress (w : Nat) (r : ShaTurns) (ks : List Nat) (h : List Nat) (block : List Byte) : List Nat :=
  let ws := (shaExtend r (ks.length - 16) (shaWords w 16 block).reverse).reverse
  let h0 := h.map (BitVec.ofNat w)
  let v := (ks.zip ws).foldl (fun v p => shaRound r v (BitVec.ofNat w p.1 + p.2)) h0
  (h0.zip v).map fun p => (p.1 + p.2).toNat

/-! ### SHA-3 -/

/-- Round constants of Keccak-f[1600]. -/
def keccakRc : List Nat :=
  [0x0000000000000001, 0x0000000000008082, 0x800000000000808a, 0x8000000080008000,
   0x000000000000808b, 0x0000000080000001, 0x8000000080008081, 0x8000000000008009,
   0x000000000000008a, 0x0000000000000088, 0x0000000080008009, 0x000000008000000a,
   0x000000008000808b, 0x800000000000008b, 0x8000000000008089, 0x8000000000008003] ++
  [0x8000000000008002, 0x8000000000000080, 0x000000000000800a, 0x800000008000000a,
   0x8000000080008081, 0x8000000000008080, 0x0000000080000001, 0x8000000080008008]

/-- Offsets of ρ on the `n` lanes left of its walk, from lane x + 5y at step `t`: the triangular numbers mod 64. -/
def keccakWalk : Nat → Nat → Nat → Nat → Tab Nat
  | 0, _, _, _ => []
  | n + 1, t, x, y => Tab.set (keccakWalk n (t + 1) y ((2 * x + 3 * y) % 5)) (x + 5 * y) ((t + 1) * (t + 2) / 2 % 64)

/-- Rotation offset of ρ by lane: lane 0 none, the others along the walk from lane 1. -/
def keccakRot : Tab Nat := keccakWalk 24 0 1 0

/-- One round of Keccak-f on 25 lanes. -/
def keccakRound (a : List (BitVec 64)) (rc : Nat) : List (BitVec 64) :=
  let c := (List.range 5).map fun x =>
    a.getD x 0 ^^^ a.getD (x + 5) 0 ^^^ a.getD (x + 10) 0 ^^^ a.getD (x + 15) 0 ^^^ a.getD (x + 20) 0
  let d := (List.range 5).map fun x => c.getD ((x + 4) % 5) 0 ^^^ (c.getD ((x + 1) % 5) 0).rotateLeft 1
  let a := (List.range 25).map fun i => a.getD i 0 ^^^ d.getD (i % 5) 0
  let b := (List.range 25).map fun i =>
    let x := i % 5; let y := i / 5
    let j := (x + 3 * y) % 5 + 5 * x
    (a.getD j 0).rotateLeft (Tab.getD keccakRot j 0)
  let e := (List.range 25).map fun i =>
    let x := i % 5; let y := i / 5
    b.getD i 0 ^^^ (~~~ b.getD ((x + 1) % 5 + 5 * y) 0 &&& b.getD ((x + 2) % 5 + 5 * y) 0)
  match e with
  | [] => []
  | l :: t => (l ^^^ BitVec.ofNat 64 rc) :: t

/-- Absorbs one block of 136 bytes into the 25 lanes. -/
def keccakAbsorb (h : List Nat) (block : List Byte) : List Nat :=
  let a := (List.range 25).map fun i =>
    BitVec.ofNat 64 (h.getD i 0) ^^^ (if i < 17 then BitVec.ofNat 64 (field block (8 * i) 8) else 0)
  (keccakRc.foldl keccakRound a).map BitVec.toNat

/-! ### The algorithms of R421 -/

/-- Block bytes of an algorithm (R421). -/
def algBlock (alg : Nat) : Nat :=
  match alg with
  | 0 => 64
  | 1 | 2 => 128
  | _ => 136

/-- Output bytes of an algorithm (R421). -/
def algOut (alg : Nat) : Nat :=
  match alg with
  | 0 => 32
  | 1 => 48
  | 2 => 64
  | _ => 32

/-- Initial state of an algorithm. -/
def algInit (alg : Nat) : List Nat :=
  match alg with
  | 0 => shaInit256
  | 1 => shaInit384
  | 2 => shaInit512
  | _ => List.replicate 25 0

/-- Absorbs one block. -/
def algAbsorb (alg : Nat) (h : List Nat) (block : List Byte) : List Nat :=
  match alg with
  | 0 => shaCompress 32 shaTurns256 shaK256 h block
  | 1 | 2 => shaCompress 64 shaTurns512 shaK512 h block
  | _ => keccakAbsorb h block

/-- Absorbs `n` blocks from the front of `bs`; answers the state and the bytes left. -/
def absorbBlocks (alg : Nat) : Nat → List Nat → List Byte → List Nat × List Byte
  | 0, h, bs => (h, bs)
  | n + 1, h, bs => absorbBlocks alg n (algAbsorb alg h (bs.take (algBlock alg))) (bs.drop (algBlock alg))

/-- Absorbs every whole block of `bs`. -/
def absorbAll (alg : Nat) (h : List Nat) (bs : List Byte) : List Nat × List Byte :=
  absorbBlocks alg (bs.length / algBlock alg) h bs

/-- The padding of a message of `count` bytes whose last `r` bytes are not yet absorbed. -/
def algPad (alg count r : Nat) : List Byte :=
  match alg with
  | 0 => 0x80 :: (zeros ((119 - r) % 64) ++ toBe 8 (8 * count))
  | 1 | 2 => 0x80 :: (zeros ((239 - r) % 128) ++ toBe 16 (8 * count))
  | _ => if r = 135 then [0x86] else 0x06 :: (zeros (134 - r) ++ [0x80])

/-- Output bytes of a final state. -/
def algResult (alg : Nat) (h : List Nat) : List Byte :=
  match alg with
  | 0 => h.flatMap (toBe 4)
  | 1 => (h.flatMap (toBe 8)).take 48
  | 2 => h.flatMap (toBe 8)
  | _ => (h.flatMap (toLe 8)).take 32

/-- Pads and finishes a hash from a state, the bytes not yet absorbed and the count of bytes so far. -/
def algFinish (alg : Nat) (h : List Nat) (buf : List Byte) (count : Nat) : List Byte :=
  algResult alg (absorbAll alg h (buf ++ algPad alg count (buf.length % algBlock alg))).1

/-- The digest of a message. -/
def digest (alg : Nat) (m : List Byte) : List Byte := algFinish alg (algInit alg) m m.length

/-- SHA-256, which the inline hasher computes (R441). -/
def sha256 (m : List Byte) : List Byte := digest 0 m

/-- A key padded to the block and combined with a pad byte (R429, R430). -/
def keyPad (alg : Nat) (key : List Byte) (b : Byte) : List Byte := (fit (algBlock alg) key).map (· ^^^ b)

/-- The state after K ⊕ ipad (R430). -/
def hmacInner (alg : Nat) (key : List Byte) : List Nat := algAbsorb alg (algInit alg) (keyPad alg key 0x36)

/-- The outer hash of an HMAC over the inner digest (R426). -/
def hmacOuter (alg : Nat) (key inner : List Byte) : List Byte := digest alg (keyPad alg key 0x5C ++ inner)

end Sys2Proof.Machine
end

