-- ==== Sys2Proof/Machine/State.lean ====
section
/-! DEFINITION. The state of the YN-832: every register, queue, buffer, counter, mode and pin the spec gives the
device, and the queue of commands that wait. Plain data; a field's default value is its value in `State.reset`. -/

namespace Sys2Proof.Machine

/-- Reasons a step could stop the machine. No meaning of this model raises one (the spec gives every row of the
table an effect): the type is here because the interface asks for one. -/
inductive Fault where
  /-- Raised by nobody; stopping would be safe. -/
  | unused
  deriving DecidableEq, Repr

/-- Reasons a step could decline a command. -/
inductive Refusal where
  /-- Raised by an arm of `exec` whose command has no meaning yet; safe. -/
  | notModelled (mnemonic : String)
  deriving DecidableEq, Repr

/-! ### Regions, datum, supply of the cores (chapter 01) -/

/-- The state of a region (R33, R509). -/
inductive RegionState where
  | lit | penumbra | umbra | retired
  deriving DecidableEq, Repr

/-- One region: state, pace, trim and what its eclipse needs (R32, R33, R35, R48, R509 to R514). -/
structure Region where
  state : RegionState := .lit
  /-- powering up towards lit (R512) -/
  relighting : Bool := false
  /-- the domains of the region are powered (R59); single domains may differ -/
  powered : Bool := false
  trim : Nat := 0
  pace : Nat := 0
  paceMin : Nat := 0
  paceMax : Nat := 0
  lowWindows : Nat := 0
  /-- datum at which penumbra or umbra began -/
  since : Nat := 0
  /-- cause as in class 0x34: 0 activation, 1 fault, 2 T2, 3 pace, 4 retirement -/
  cause : Nat := 0
  voluntary : Bool := false
  /-- SEQ of the entry the eclipse follows from -/
  related : Nat := 0
  /-- operating seconds of its involuntary eclipses (R514) -/
  involuntary : List Nat := []
  /-- its fabric sensor is broken: retired on reaching umbra (R484) -/
  sensorRetire : Bool := false
  /-- the fabric sensor stopped it at T2 and has not released it (R478, R479) -/
  t2 : Bool := false
  /-- passed its self-test in this umbra (R512) -/
  tested : Bool := false
  /-- in umbra while its firmware is being updated: its fabric domain stays on (R59) -/
  servicing : Bool := false
  /-- start of the benchmark-ring window under way (R32) -/
  windowAt : Nat := 0
  deriving DecidableEq, Repr

/-- A switched domain that differs from its region's power (R55, R57, R58): powering up since a datum, as the wake of
a core cell (R57) or in a place of R58. -/
inductive DomainState where
  | off
  | poweringUp (since : Nat) (wake : Bool)
  | on
  deriving DecidableEq, Repr

/-- An arbiter: the request it has granted, and the best-effort transfers served for each slice (R51, R455). -/
structure Arbiter where
  granted : Option ArbReq := none
  served : Tab Nat := []
  deriving DecidableEq, Repr

/-- The core supply (R36 to R39, R576). -/
structure Vcore where
  vset : Nat := 750
  vread : Nat := 0
  lastCmd : Nat := 0
  /-- readbacks that are due, oldest first: the datum, and whether the write was a repeat (R38) -/
  checks : List (Nat × Bool) := []
  /-- no further step, except toward 0.60 V for a trip (R38, R507) -/
  frozen : Bool := false
  enabled : Bool := false
  pgGood : Bool := false
  pgFails : Nat := 0
  deriving DecidableEq, Repr

/-- A Stream Reserve as judged (R134, R135). -/
structure ReserveReq where
  slice : Nat
  nsid : Nat
  sid : Nat
  bw : Nat
  maxw : Nat
  burst : Nat
  lbound : Nat
  cls : Nat
  deriving DecidableEq, Repr

/-- A request held until a baseline computation completes (R45). -/
inductive HeldJudge where
  | reserve (h : Sub) (q : ReserveReq)
  | power (h : Sub) (ps : Nat)
  /-- a doorbell that leaves a non-operational state (R495) -/
  | exit (port : PortId)
  /-- a controller reset, which asks for PS0 (R496) -/
  | ps0 (port : PortId)
  deriving DecidableEq, Repr

/-- The baseline (R42 to R46, R48): the terms, what is left of them, and a computation in progress. -/
structure Baseline where
  running : Bool := false
  trigger : Nat := 0
  deadline : Nat := 0
  computed : Nat := 0
  coreTerm : Nat := 0
  flashProg : Nat := 0
  flashRead : Nat := 0
  dram : Nat := 0
  arbiter : Nat := 0
  keyArray : Nat := 0
  baseWbw : Nat := 0
  baseCore : Nat := 0
  hbGc : Nat := 0
  held : List HeldJudge := []
  deriving DecidableEq, Repr

/-! ### Host link and queues (chapter 02) -/

/-- A submission queue (R78, R80, R95). `size` is the number of entries. -/
structure SubQueue where
  slice : Nat := 0
  size : Nat := 0
  prio : Nat := 0
  cqid : Nat := 0
  tail : Nat := 0
  fetched : Nat := 0
  /-- entries not yet fetched, by doorbell write: how many and its datum (R143) -/
  bells : List (Nat × Nat) := []
  /-- being deleted: the tail is final (R95); the Delete command, none for Slice Destroy or after a reset -/
  deleting : Option (Option Sub) := none
  deriving DecidableEq, Repr

/-- A host command fetched and not completed (R79): the datum of its doorbell write, and whether its queue is of the
urgent class under weighted round robin (R80, R143). -/
structure HeldCmd where
  h : Sub
  bell : Nat
  urgent : Bool
  /-- the regions it is dispatched to, with the part of its range that each owns: region, first block, count (R81) -/
  parts : List (Nat × Nat × Nat) := []
  deriving DecidableEq, Repr

/-- A completion: command, status, Dwords 0 and 1, and the data returned to the host. -/
structure Completion where
  h : Sub
  sct : Nat := 0
  sc : Nat := 0
  dw0 : Word := 0
  dw1 : Word := 0
  data : List Byte := []
  deriving DecidableEq, Repr

/-- A completion queue: entries posted and not yet freed by the host (R83). -/
structure ComplQueue where
  slice : Nat := 0
  size : Nat := 0
  vector : Nat := 0
  ien : Bool := true
  head : Nat := 0
  entries : List Completion := []
  deriving DecidableEq, Repr

/-- An MSI-X vector: table entry, mask, pending bit and coalescing (R103). -/
structure Vector' where
  addr : Nat := 0
  data : Nat := 0
  masked : Bool := true
  pending : Bool := false
  /-- CD of Interrupt Vector Configuration -/
  cd : Bool := false
  /-- completions held for coalescing, and the datum at which the first of them came -/
  held : Nat := 0
  heldSince : Nat := 0
  signals : Nat := 0
  deriving DecidableEq, Repr

/-- An asynchronous event: type, information, log page (R92). -/
structure AsyncEvent where
  typ : Nat
  info : Nat
  log : Nat
  /-- SEQ of its log 0xC4 entry, for type 7h -/
  seq : Nat := 0
  deriving DecidableEq, Repr

/-- An entry of the Error Information log: its count, the command it belongs to (FFFFh for none, R178), the status, and
the LBA and namespace where one is named. -/
structure ErrorEntry where
  count : Nat
  sq : Nat
  cid : Nat
  sct : Nat
  sc : Nat
  lba : Nat
  nsid : Nat
  deriving DecidableEq, Repr

/-- Configuration registers of a port that the host may write (R63, R65): BAR addresses, payload and read-request size
codes, ASPM control and the two ECRC enables. -/
structure PciConfig where
  bar0 : Nat := 0
  bar2 : Nat := 0
  mps : Nat := 0
  mrrs : Nat := 2
  aspmL1 : Bool := false
  ecrcGen : Bool := false
  ecrcCheck : Bool := false
  deriving DecidableEq, Repr

/-- Where arbitration stands (R80): the queue that is being served and how much of its burst is left, the queue served
last of each class, and what is left of each weighted class's share. -/
structure FetchTurn where
  cur : Nat := 0
  left : Nat := 0
  last : Tab Nat := []
  credit : Tab Nat := []
  deriving DecidableEq, Repr

/-- One port and its controller (R61 to R73, R92, R96, R97, R461, R496). -/
structure HostPort where
  present : Bool := false
  linkUp : Bool := false
  en : Bool := false
  css : Nat := 0
  mps : Nat := 0
  ams : Nat := 0
  iosqes : Nat := 0
  iocqes : Nat := 0
  shn : Nat := 0
  rdy : Bool := false
  shst : Nat := 0
  cfs : Bool := false
  aqa : Nat := 0
  asq : Nat := 0
  acq : Nat := 0
  /-- DATUM_HI captured by a 32-bit read of DATUM_LO that was the last read on this port (R69) -/
  hiCapture : Option Nat := none
  /-- the value the last register read returned -/
  lastRead : Nat := 0
  pci : PciConfig := {}
  turn : FetchTurn := {}
  sqs : Tab SubQueue := []
  cqs : Tab ComplQueue := []
  vectors : Tab Vector' := []
  pasidEnable : Bool := false
  /-- outstanding Asynchronous Event Requests, oldest first -/
  aers : List Sub := []
  /-- events not yet reported, oldest first -/
  events : List AsyncEvent := []
  /-- events reported whose log page has not been read with RAE cleared -/
  unread : List AsyncEvent := []
  /-- Abort commands not yet completed (R94) -/
  aborts : List Sub := []
  /-- power state requested on this controller (R496) -/
  reqPs : Nat := 0
  /-- the other port's controller is lost (R102) -/
  anaAlone : Bool := false
  /-- changes of its ANA states -/
  anaChanges : Nat := 0
  errorLog : List ErrorEntry := []
  errorCount : Nat := 0
  deriving DecidableEq, Repr

/-- The features of R86: values in force and saved values. -/
structure Features where
  arb : Nat := 0
  arbSaved : Option Nat := none
  /-- temperature thresholds: key TMPSEL × 2 + THSEL, in K (R487) -/
  thresholds : Tab Nat := []
  thresholdsSaved : Tab Nat := []
  /-- queue counts requested by each controller: key is the port -/
  queues : Tab (Nat × Nat) := []
  coalTime : Nat := 0
  coalThr : Nat := 0
  coalSaved : Option (Nat × Nat) := none
  asyncCfg : Word := 0x0B1F
  asyncSaved : Option Word := none
  /-- timestamp: milliseconds and datum of the store; origin 001b when set by the host (R104) -/
  tsMs : Nat := 0
  tsDatum : Nat := 0
  tsOrigin : Nat := 0
  grace : Nat := 20
  graceSaved : Option Nat := none
  grainInUse : Nat := 12
  grainNext : Nat := 12
  scrub : Nat := 24
  scrubSaved : Option Nat := none
  deriving DecidableEq, Repr

/-- NVMe-MI: configuration, what health showed when each change flag was last cleared, and the last response (R105). -/
structure ManagementIf where
  freq : Nat := 1
  /-- by flag of the composite controller status -/
  seen : Tab Nat := []
  mtu : Nat := 64
  status : Nat := 0
  response : List Byte := []
  deriving DecidableEq, Repr

/-! ### Write path (chapter 03) -/

/-- What an operation in progress commits (R106, R109, R370); the numbers are the OP codes of R163. -/
inductive WriteKind where
  | write | writeZeroes | deallocate | invokeOutput
  deriving DecidableEq, Repr

/-- One granule of an operation in progress (R114). -/
structure Granule where
  slba : Nat
  nlb : Nat
  data : List Byte
  dealloc : Bool
  deriving DecidableEq, Repr

/-- A Write, Write Zeroes or Dataset Management as the host issued it: namespace, ranges, DEAC, DTYPE and DSPEC, data. -/
structure WriteReq where
  kind : WriteKind
  nsid : Nat
  ranges : List (Nat × Nat)
  deac : Bool := false
  dtype : Nat := 0
  dspec : Nat := 0
  data : List Byte := []
  deriving DecidableEq, Repr

/-- A Write, Write Zeroes, Dataset Management or Invoke output received and not yet completed. -/
structure WriteOp where
  h : Sub
  slice : Nat
  nsid : Nat
  kind : WriteKind
  sid : Nat
  granules : List Granule
  committed : Nat := 0
  /-- conforming reserved write: its deadline (R142) -/
  deadline : Option Nat := none
  /-- names a reserved stream -/
  reserved : Bool := false
  conforming : Bool := false
  /-- datum from which its latency counts (R143), datum of its dispatch, and its bytes -/
  start : Nat := 0
  dispatched : Nat := 0
  bytes : Nat := 0
  /-- past the checks of stage 2; a held command is checked when it is dispatched (R126) -/
  checked : Bool := false
  /-- held in dump mode until service resumes (R126, R127) -/
  held : Bool := false
  /-- the datum since which it is held after the reserve window, and the ticks it has been held so (R145) -/
  heldAfterWindow : Option Nat := none
  heldTicks : Nat := 0
  /-- a command whose dispatch is held: it is checked when it is dispatched (R126) -/
  req : Option WriteReq := none
  /-- it completes in write-through although buffered operation has resumed (R132) -/
  wt : Bool := false
  /-- the task whose release this write is part of -/
  task : Option Nat := none
  deriving DecidableEq, Repr

/-- A 4 KiB line of the write buffer (R111, R112, R181): the quarter it holds, the mask of the 512-byte sectors in it,
and the stripe it is being programmed in, as superblock × 2^24 + stripe. -/
structure BufferLine where
  nsid : Nat
  quarter : Nat
  mask : Nat
  programmed : Option Nat := none
  /-- its number in set W (R249) -/
  slot : Nat := 0
  deriving DecidableEq, Repr

/-- The steps of a measurement (R117). -/
inductive MeasureStep where
  | idle
  | waiting (since : Nat)
  | discharging (t0 : Nat)
  | discharging2 (t0 : Nat)
  | recharging
  deriving DecidableEq, Repr

/-- The samples of a completed measurement: ADC codes and Δt in ticks (R117). -/
structure Measurement where
  v0 : Nat
  v1 : Nat
  v2 : Nat
  dt : Nat
  deriving DecidableEq, Repr

/-- The hold-up bank (R117 to R125, R485, R580, R581). -/
structure HoldUp where
  vbank : Nat := 0
  charging : Bool := false
  testLoad : Bool := false
  forbidden : Bool := false
  latched : Bool := false
  settled : Bool := false
  step : MeasureStep := .idle
  v0 : Nat := 0
  v1 : Nat := 0
  /-- limit lowered for a measurement until the bank has recharged (R117) -/
  lowered : Bool := false
  meas : Option Measurement := none
  prevB : Option Nat := none
  measB : Option Nat := none
  measDt : Nat := 0
  /-- operating seconds at which the next scheduled measurement falls due -/
  dueAt : Nat := 0
  retry : Bool := false
  /-- the measurement that waits or runs is, or counts as, a scheduled one (R118, R125) -/
  scheduled : Bool := false
  degradedC : Bool := false
  degradedB : Bool := false
  testers : List Sub := []
  /-- B in force, bytes -/
  b : Nat := 0
  /-- write-through holds (R123, R124); it holds for a cause other than 2 (R122) -/
  writeThrough : Bool := true
  wtOther : Bool := false
  /-- write-through has cause 1 (R124) -/
  wtOne : Bool := false
  /-- SMART Critical Warning bit 4 (R124) -/
  warning : Bool := false
  deriving DecidableEq, Repr

/-- Power-fail handling: dump mode, brown-out service, power-down (R126 to R132). -/
structure Dump where
  qualifying : Option Nat := none
  active : Bool := false
  tick0 : Nat := 0
  done : Bool := false
  holdSel : Bool := false
  windowOpen : Bool := false
  /-- bytes each reserved stream committed since tick 0: key nsid × 65536 + sid -/
  streamBytes : Tab Nat := []
  brownOut : Bool := false
  /-- datum since which VIN has been above warning + 0.3 V without a break -/
  recovery : Option Nat := none
  poweredDown : Bool := false
  dumps : Nat := 0
  recovered : Nat := 0
  dumpMax : Nat := 0
  dipHeld : Nat := 0
  /-- lowest VIN conversion during this dump mode -/
  lowestVin : Nat := 0
  deriving DecidableEq, Repr

/-- An admitted reservation (R137, R142, R145, R146). -/
structure Reservation where
  slice : Nat
  nsid : Nat
  sid : Nat
  cls : Nat
  bw : Nat
  maxw : Nat
  burst : Nat
  lbound : Nat
  admitted : Nat
  missed : Bool := false
  atRisk : Bool := false
  maxLat : Nat := 0
  bytes : Nat := 0
  writes : Nat := 0
  excess : Nat := 0
  misses : Nat := 0
  oversize : Nat := 0
  dipMiss : Nat := 0
  bins : List Nat := List.replicate 16 0
  /-- token bucket at `bucketAt`, in 1/100000 byte (R142) -/
  bucket : Nat
  bucketAt : Nat
  deriving DecidableEq, Repr

/-! ### Namespaces, chain, seals (chapters 04 and 05) -/

/-- A link record (R163) with its preimage fields (R152). -/
structure Link where
  lseq : Nat
  slba : Nat
  nlb : Nat
  sid : Nat
  op : Nat
  datum : Nat
  opsec : Nat
  pcc : Nat
  ddig : List Byte
  link : List Byte
  deriving DecidableEq, Repr

/-- A monument triggered and not yet written (R158, R159). -/
structure MonTrigger where
  kind : Nat
  mseq : Nat
  lseq : Nat
  head : List Byte
  xslba : Nat := 0
  xnlb : Nat := 0
  xroot : List Byte := List.replicate 32 0
  /-- the command that completes once the monument is written -/
  waiter : Option (Sub × Nat) := none
  deriving DecidableEq, Repr

/-- A custody chain (R151 to R160). -/
structure Chain where
  links : List Link := []
  epoch : Nat := 0
  nextMseq : Nat := 0
  pending : List MonTrigger := []
  /-- written monument records of 256 bytes, MSEQ 0 first -/
  monuments : List (List Byte) := []
  /-- datum of the last monument, or of start-up when none since (R158) -/
  lastMon : Nat := 0
  /-- links formed when the last monument was triggered (R158) -/
  linksAtMon : Nat := 0
  kind1Due : Bool := false
  /-- the link formed for the next granule to commit -/
  forming : Option (Sub × Nat × Link) := none
  deriving DecidableEq, Repr

/-- An entry of the seal table (R169 to R177). -/
structure SealEntry where
  slba : Nat
  nlb : Nat
  label : List Byte
  datum : Nat
  mseq : Nat
  /-- manifest: unit number and digest of its sealed LBAs -/
  manifest : List (Nat × List Byte)
  root : List Byte
  /-- manifest complete (second SEAL record) -/
  complete : Bool
  headLseq : Nat
  head : List Byte
  deriving DecidableEq, Repr

/-- An Extent Seal dispatched and not yet complete (R170, R171). -/
structure PendingSeal where
  /-- the command, unless a reset has ended it -/
  h : Option Sub
  slba : Nat
  nlb : Nat
  label : List Byte
  /-- the seal point is fixed -/
  fixed : Bool := false
  deriving DecidableEq, Repr

/-- KIND of a map entry (R184). -/
inductive MapKind where
  | deallocated | onNand | buffered | unreadable
  deriving DecidableEq, Repr

/-- A map entry and, for a buffered unit, its previous entry (R181, R184). -/
structure MapEntry where
  kind : MapKind := .deallocated
  slc : Bool := false
  die : Nat := 0
  ppn : Nat := 0
  sb : Nat := 0
  /-- journal sequence of the record that committed its newest data (R182) -/
  seq : Nat := 0
  prevKind : MapKind := .deallocated
  prevSlc : Bool := false
  prevDie : Nat := 0
  prevPpn : Nat := 0
  prevSb : Nat := 0
  /-- marked because a sealed unit mismatched after rebuild: its source block is retained (R178) -/
  retained : Bool := false
  deriving DecidableEq, Repr

/-- A namespace (R76, R77, R101, R147, R184). -/
structure Namespace where
  nsze : Nat
  ncap : Nat
  lbaf : Nat
  evid : Bool
  xts : Bool
  par2 : Bool
  slice : Nat
  anagrp : Nat
  nguid : List Byte
  ctrls : List Nat := []
  keySlot : Option Nat := none
  /-- a delete waits for earlier commands (R588); the command that completes with it, unless a reset has ended it -/
  deleting : Option (Option Sub) := none
  /-- content of the blocks that are not all zero, by LBA -/
  blocks : Tab (List Byte) := []
  map : Tab MapEntry := []
  /-- poisoned 512-byte sectors (R183) -/
  poison : List Nat := []
  chain : Chain := {}
  seals : List SealEntry := []
  sealing : List PendingSeal := []
  streams : List Nat := []
  streamsEnabled : Bool := false
  /-- streams allocated by Directive Receive -/
  streamsAlloc : Nat := 0
  deriving DecidableEq, Repr

/-- A command that takes effect on its namespaces in its turn (R169). -/
inductive NsCommand where
  | sealing (nsid : Nat) (data : List Byte)
  | unsealing (nsid : Nat) (data : List Byte) (rechecks : List (Nat × Bool))
  | format (nsid lbaf ses parity : Nat)
  | sanitize (action : Nat)
  | delete (nsid : Nat)
  deriving DecidableEq, Repr

/-- Such a command that waits for its turn, and the slice it acts for. -/
structure NsTurn where
  h : Sub
  slice : Nat
  cmd : NsCommand
  deriving DecidableEq, Repr

/-! ### Media (chapters 05 and 06) -/

/-- STATE of a die (R216). -/
inductive DieState where
  | notFitted | inService | retired | excluded
  deriving DecidableEq, Repr

/-- A NAND die (R194, R210, R216, R231, R240). -/
structure Die where
  state : DieState := .notFitted
  blocks : Nat := 0
  maxBad : Nat := 0
  good : Nat := 0
  pagesPerBlock : Nat := 0
  progRate : Nat := 0
  slcRate : Nat := 0
  retryLevels : Nat := 0
  endurance : Nat := 0
  codewordLen : Nat := 0
  rateMts : Nat := 0
  planes : Nat := 0
  spareBytes : Nat := 0
  /-- maximum page read times, native and SLC, in µs (R222) -/
  tRead : Nat := 0
  tReadSlc : Nat := 0
  /-- blocks marked bad by the factory (R221) -/
  factoryBad : List Nat := []
  freeBlocks : List Nat := []
  /-- blocks of the system area, and the erased blocks of the dump pool (R207) -/
  sysBlocks : List Nat := []
  poolBlocks : List Nat := []
  spareAtRetire : Int := 0
  grownBad : Nat := 0
  retries : Nat := 0
  ldpcFails : Nat := 0
  tempMax : Option Int := none
  lastTemp : Int := 0
  outCount : Nat := 0
  inCount : Nat := 0
  /-- datum from which the next temperature sample is due (R471) -/
  nextSample : Nat := 0
  stopped : Bool := false
  /-- operating seconds of block retirements (R231) -/
  retiredAt : List Nat := []
  cause : Nat := 0
  deriving DecidableEq, Repr

/-- A block's record in the block table (R192, R226, R228, R242): key die × 65536 + block. -/
structure Block where
  ec : Nat := 0
  reads : Nat := 0
  level : Nat := 0
  outside : Bool := false
  retired : Bool := false
  /-- the unreadable sealed units for which it is retained: namespace and unit (R178) -/
  retainedFor : List (Nat × Nat) := []
  refresh : Bool := false
  deriving DecidableEq, Repr

/-- State of a superblock (R189). -/
inductive SbState where
  | free | opened | closed | erasing
  deriving DecidableEq, Repr

/-- What a page of a superblock holds (R185, R195). -/
inductive PageUse where
  | unit (nsid u : Nat)
  | mapPage (nsid page : Nat)
  deriving DecidableEq, Repr

/-- A programmed page: its stripe and member, what it holds, and of a unit the journal sequence and the poison mask of its
metadata and its data as programmed (R182, R183). -/
structure Placed where
  stripe : Nat
  member : Nat
  what : PageUse
  seq : Nat := 0
  poison : List Nat := []
  data : List Byte := []
  /-- of a copy: the entry that its MOVE delta expects, and the superblock it is copied from (R191, R203) -/
  source : Option (MapEntry × Nat) := none
  deriving DecidableEq, Repr

/-- A superblock (R195, R200 to R203, R229). -/
structure Superblock where
  group : Nat
  state : SbState
  par2 : Bool
  slc : Bool
  dump : Bool
  members : List (Nat × Nat)
  nextStripe : Nat := 0
  placed : List Placed := []
  /-- contents of the parity pages: stripe, P, and Q with 30+2 (R195) -/
  parity : List (Nat × List Byte × List Byte) := []
  /-- positions of members that take no further page after a program failure in a dump (R230) -/
  dead : List Nat := []
  /-- stripes issued and not complete -/
  programming : List Nat := []
  /-- the newest stripe, while copies are still being added to it -/
  filling : Option Nat := none
  /-- sequence numbers of MOVE records for units copied out of it -/
  moves : List Nat := []
  /-- media scrub: the pass it was last read in, and the pages read in that pass (R229) -/
  scrubPass : Nat := 0
  scrubNext : Nat := 0
  deriving DecidableEq, Repr

/-- A change of a map entry in a record; a conditional one names the entry it expects (R191). -/
structure Delta where
  nsid : Nat
  unit : Nat
  expect : Option MapEntry := none
  entry : MapEntry
  deriving DecidableEq, Repr

/-- How a SEAL record changes the seal table (R189, R170, R176). -/
inductive SealChange where
  | point (label : List Byte) (datum : Nat) (head : List Byte)
  | manifest (place : Nat) (root : List Byte)
  | unseal
  deriving DecidableEq, Repr

/-- What a STREAM record says of a reservation (R189). -/
inductive StreamChange where
  | admitted | released | ended
  deriving DecidableEq, Repr

/-- What a NAMESPACE record says (R189). -/
inductive NsChange where
  | create | delete | format | sanitize | altered
  deriving DecidableEq, Repr

/-- What a DUMP record says (R189): with the lines dumped, by namespace and quarter, when the dump ended early. -/
inductive DumpChange where
  | entered | complete | ended (lines : List (Nat × Nat))
  deriving DecidableEq, Repr

/-- The content of a journal record, by KIND (R189). -/
inductive JournalBody where
  | granule (deltas : List Delta) (link : Option Link) (mseq : Option Nat)
  | move (deltas : List Delta)
  | sbState (sb : Nat) (state : SbState) (par2 : Bool) (members : List (Nat × Nat))
  | retire (die : Nat) (blk : Option Nat)
  | seals (nsid slba nlb : Nat) (change : SealChange)
  | stream (nsid sid : Nat) (change : StreamChange)
  | nsChange (nsid : Nat) (par2 : Bool) (change : NsChange)
  | dump (change : DumpChange)
  | checkpoint (p blockTable directory : Nat)
  | monument (nsid : Nat) (t : MonTrigger)
  deriving DecidableEq, Repr

/-- A journal record (R189, R190): SEQ, content, and the two dies of its copies once it is durable. -/
structure JournalRecord where
  seq : Nat
  body : JournalBody
  dies : Option (Nat × Nat) := none
  deriving DecidableEq, Repr

/-- A superblock in the block table: its state, valid units and mean erase count (R192). -/
structure TableEntry where
  sb : Nat
  state : SbState
  valid : Nat
  erases : Nat
  deriving DecidableEq, Repr

/-- A checkpoint (R192): P, the block table (superblocks, erase counts, retired blocks and dies), the map directory, and
where the spec leaves the place open, the places of the two. -/
structure Checkpoint where
  p : Nat
  table : List TableEntry
  erases : List (Nat × Nat)
  retiredBlocks : List Nat
  retiredDies : List Nat
  directory : List (Nat × Nat × Nat)
  places : Nat × Nat
  deriving DecidableEq, Repr

/-- A map page (R185 to R188): key nsid × 2^32 + page. -/
structure MapPage where
  cached : Bool := false
  dirty : Bool := false
  used : Nat := 0
  /-- journal sequence of the newest delta applied to the cached page, and of that in the copy on NAND -/
  seq : Nat := 0
  mediaSeq : Nat := 0
  /-- where the map directory says it lies: die and PPN -/
  place : Option (Nat × Nat) := none
  /-- deltas pending until the page arrives, with their sequence (R187) -/
  pending : List (Nat × Delta) := []
  /-- unreadable on NAND, being reconstructed (R188) -/
  lost : Bool := false
  deriving DecidableEq, Repr

/-- Why a superblock is being emptied: reclaim, wear levelling or refresh (R201, R206, R228). -/
inductive MoveCause where
  | reclaim | wear | refresh
  deriving DecidableEq, Repr

/-- Media management as a whole (R192, R199, R207 to R215, R233 to R238, R244). -/
structure Media where
  dies : Tab Die := []
  blocks : Tab Block := []
  sbs : Tab Superblock := []
  nextSb : Nat := 0
  pages : Tab MapPage := []
  seq : Nat := 0
  /-- records in the mirrored DRAM journal, and the durable ones since the older checkpoint kept -/
  journal : List JournalRecord := []
  log : List JournalRecord := []
  /-- the checkpoints kept, newest first; datum and operating second of the newest, and bytes of journal since -/
  checkpoints : List Checkpoint := []
  checkpointDt : Nat := 0
  checkpointOp : Nat := 0
  journalBytes : Nat := 0
  /-- a checkpoint of a completed shutdown is the last record (R551) -/
  clean : Bool := false
  formatted : Bool := false
  tnvmcap : Nat := 0
  nAtFormat : Nat := 0
  uPerDie : Nat := 0
  linkStore : Nat := 0
  spFormat : Int := 0
  opPct : Nat := 12
  readOnly : Bool := false
  /-- SANACT of the last sanitize operation: 2 block erase, 4 crypto erase, 0 none -/
  sanAction : Nat := 0
  /-- a granule has been committed since manufacture or the last sanitize -/
  written : Bool := false
  spareLow : Bool := false
  linkOver : Bool := false
  rebuilding : List Nat := []
  dpc : Nat := 0
  wpLow : Bool := true
  /-- superblocks that reclaim has freed since the last move of wear levelling (R206) -/
  reclaimed : Nat := 0
  /-- superblocks being emptied, with the cause -/
  sources : Tab MoveCause := []
  /-- the superblock that takes the units of a wear-levelling move -/
  wlTarget : Option Nat := none
  /-- units rebuilt from parity that wait to be relocated: namespace and unit (R198) -/
  relocate : List (Nat × Nat) := []
  /-- page reads that parity rebuild has answered after 2 ms: namespace, unit and datum of issue (R227) -/
  answered : List (Nat × Nat × Nat) := []
  refreshTurn : Bool := false
  hostUnits : Nat := 0
  nandUnits : Nat := 0
  gcUnits : Nat := 0
  wlUnits : Nat := 0
  readRetries : Nat := 0
  softDecodes : Nat := 0
  ldpcFails : Nat := 0
  parityRebuilds : Nat := 0
  unrecovered : Nat := 0
  grownBad : Nat := 0
  sealMismatch : Nat := 0
  mapReloads : Nat := 0
  mediaErrors : Nat := 0
  replayMs : Nat := 0
  destageStopped : Bool := false
  /-- highest and lowest on-die and NAND temperatures since manufacture, with stamps (R215) -/
  tempExt : Tab (Int × Nat × Nat) := []
  /-- channels: owner engine is the alternate -/
  adopted : List Nat := []
  failedChannels : List Nat := []
  /-- (operating second, HOST_UNITS, NAND_UNITS) at each change within the last 24 h of operation (WA_MEAS) -/
  waLog : List (Nat × Nat × Nat) := []
  deriving DecidableEq, Repr

/-- SMART counters kept by the device (R214, R488). -/
structure Smart where
  unitsRead : Nat := 0
  unitsWritten : Nat := 0
  readCmds : Nat := 0
  writeCmds : Nat := 0
  /-- minutes in which a host command was held, and whether one was in this minute -/
  busyMinutes : Nat := 0
  busyNow : Bool := false
  unsafeShutdowns : Nat := 0
  warnSecs : Nat := 0
  critSecs : Nat := 0
  tmt1Count : Nat := 0
  tmt1Secs : Nat := 0
  tmt2Count : Nat := 0
  tmt2Secs : Nat := 0
  deriving DecidableEq, Repr

/-! ### DRAM (chapter 07) -/

/-- One DRAM channel (R247 to R276). -/
structure DramChannel where
  fitted : Bool := false
  inService : Bool := false
  rate : Nat := 0
  twice : Bool := false
  /-- row tables: key bank, entries (row, count) (R258) -/
  tables : Tab (List (Nat × Nat)) := []
  /-- rows whose ACTs are held, with their bank key (R259) -/
  heldRows : List (Nat × Nat) := []
  /-- bursts that traverse rewrites ahead of its sweep, at most 256 (R268, R272) -/
  revisit : List Nat := []
  /-- distinct corrected bursts by lane group in this traverse pass (R270) -/
  laneHits : Tab (List Nat) := []
  laneReported : List Nat := []
  misdirectedAt : List Nat := []
  uncorrectableAt : List Nat := []
  /-- requests of each subchannel with the offset of their burst, oldest first; subchannels whose writes go first (R255,
  R256) -/
  queues : Tab (List (Nat × DramRequest)) := []
  draining : List Nat := []
  /-- bursts of the channel that traverse has visited in this pass (R271) -/
  traversed : Nat := 0
  refreshes : Nat := 0
  /-- datum of the newest refresh, start of refresh window and read of mode register 4, and of the ZQ calibration of each
  rank (R258, R260, R262) -/
  refreshAt : Nat := 0
  windowAt : Nat := 0
  mr4At : Nat := 0
  zqAt : Tab Nat := []
  oscAt : Nat := 0
  oscTemp : Int := 0
  retrainDue : Bool := false
  /-- left self-refresh: no access before a ZQ calibration, a DQS oscillator read and a retraining it asks for (R263) -/
  waking : Bool := false
  zqDue : Bool := false
  oscDue : Bool := false
  corrected : Nat := 0
  uncorrectable : Nat := 0
  misdirected : Nat := 0
  deriving DecidableEq, Repr

/-- DRAM as a whole. -/
structure Dram where
  channels : Tab DramChannel := []
  gib : Nat := 0
  rhth : Nat := 2048
  /-- mirror pairs n that are broken -/
  brokenPairs : List Nat := []
  setSReforming : Bool := false
  /-- set U filled, MiB; total compute memory, MiB -/
  filledMib : Nat := 0
  totalMib : Nat := 0
  /-- operating seconds outside self-refresh since this pass of traverse began (R271) -/
  passSecs : Nat := 0
  /-- extents of set U: members and the base of each (R250) -/
  extents : List (List (Nat × Nat)) := []
  /-- bursts that do not hold what the fill left: 80 symbols each (R253, R264) -/
  bursts : Tab (List Byte) := []
  selfRefresh : Bool := false
  /-- compute bursts that are lost, with the channel of each (R271) -/
  badCompute : List (Nat × Space × Nat) := []
  /-- compute memory with lines in a channel that is lost: space, members, grain, and the member that is lost (R274) -/
  lostMembers : List (Space × Nat × Nat × Nat) := []
  deriving DecidableEq, Repr

/-! ### Opxus cores and tasks (chapters 08 and 09) -/

/-- State of a task (R319). -/
inductive TaskPhase where
  | waiting | ready | running | ended | releasing
  deriving DecidableEq, Repr

/-- State of an engine ticket (R374). -/
inductive TicketState where
  | idle | busy | done | failed
  deriving DecidableEq, Repr

/-- A ticket of a block engine: state, status, bytes produced, and what it runs (R374 to R379). -/
structure Ticket where
  state : TicketState := .idle
  status : Nat := 0
  out : Nat := 0
  flag : Nat := 0
  /-- source (for LBA source, the byte offset), destination, length, room, operation and level -/
  src : Nat := 0
  dst : Nat := 0
  len : Nat := 0
  room : Nat := 0
  op : Nat := 0
  level : Nat := 0
  lba : Bool := false
  /-- the pattern set of a filter scan, as it stood at its start -/
  image : List Byte := []
  /-- the task was restarted or ended: the result is discarded -/
  discard : Bool := false
  /-- the block whose engine works -/
  block : Nat := 0
  deriving DecidableEq, Repr

/-- A visible effect held until release (R334). -/
inductive HeldEffect where
  | lbaOut (firstBlock nblocks : Nat) (data : List Byte)
  | handOut (addr : Nat)
  | result (data : List Byte)
  | keyInsert (table : Nat) (value mask : Nat) (prio : Nat) (dat : Nat)
  | keyDelete (table : Nat) (value mask : Nat) (prio : Nat)
  | poolFree (addr : Nat)
  | poolShare (addr : Nat)
  deriving DecidableEq, Repr

/-- A spawn made earlier, for replay (R338): parameters and the child's tid. -/
structure SpawnRecord where
  slot : Nat
  budget : Nat
  ctl : Nat
  mask : Nat
  args : List Word
  child : Nat
  deriving DecidableEq, Repr

/-- The task-context port registers (R29 to R30, R341, R353, R376 to R379, R408, R422). -/
structure PortRegs where
  nowHi : Option Word := none
  alarmLo : Word := 0
  alarmHi : Word := 0
  arm : Bool := false
  fired : Bool := false
  alarmFlag : Nat := 0
  spSlot : Word := 0
  spBudget : Word := 0
  spCtl : Word := 0
  spMask : Word := 0
  spArgs : Vector Word 4 := Vector.replicate 4 0
  plCfg : Word := 0
  plQuota : Word := 0
  plSel : Word := 0
  plStatus : Nat := 0
  plQinfo : Word := 0
  dmaSrc : Word := 0
  dmaSrcHi : Word := 0
  dmaDst : Word := 0
  dmaLen : Word := 0
  dmaCtl : Word := 0
  cpSrc : Word := 0
  cpSrcLen : Word := 0
  cpDst : Word := 0
  cpDstLen : Word := 0
  cpCtl : Word := 0
  fsOff : Word := 0
  fsNblk : Word := 0
  fsPset : Word := 0
  fsDst : Word := 0
  fsDstLen : Word := 0
  fsCtl : Word := 0
  fsCount : Nat := 0
  fsFail : Nat := 0
  fsFirstBad : Nat := 0
  kaTable : Word := 0
  kaKey : Vector Word 20 := Vector.replicate 20 0
  kaMask : Vector Word 20 := Vector.replicate 20 0
  kaPrio : Word := 0
  kaDlo : Word := 0
  kaDhi : Word := 0
  kaRdlo : Word := 0
  kaRdhi : Word := 0
  kaRidx : Word := 0
  dgAlg : Nat := 0
  dgHmac : Bool := false
  dgTokey : Bool := false
  dgFlag : Nat := 0
  dgLen : Nat := 0
  dgKeySlot : Nat := 0
  dgDest : Nat := 0
  dgCtx : Nat := 0
  dgReady : Bool := false
  dgOvr : Bool := false
  dgLenErr : Bool := false
  dgEarly : Bool := false
  dgBusyAll : Bool := false
  dgErr : Nat := 0
  dgResult : List Byte := []
  deriving DecidableEq, Repr

/-- A task: architectural state (R277), event state, scheduling and what it holds (R317 to R340). The key of a task in
its table is its index; `gen` completes its tid (R318). -/
structure Task where
  gen : Nat
  phase : TaskPhase
  slice : Nat
  /-- program slot, 0xFFFF for the firmware image -/
  slot : Nat
  fw : Bool
  regs : Vector Word 32
  /-- p7 to p0; p0 always 1 -/
  preds : BitVec 8
  pc : Word
  ds : Word
  dlim : Word
  /-- spill area of the return stack, top first; what is on chip stands in its core (R290, R291) -/
  rstack : List Word
  steps : Word
  exhausted : Bool
  ports : PortRegs
  tickets : Tab Ticket
  /-- block scratch and private segment (R371) -/
  scratch : Memory
  priv : Memory
  /-- flow and sequence number (R332) -/
  flow : Option (Nat × Nat)
  budget : Nat
  initMask : Word
  args : List Word
  mask : Word
  maskAll : Bool
  /-- register that a completing wait writes -/
  waitReg : Option Reg
  flags : Word
  delivered : Word
  deadline : Option Nat
  region : Nat
  lastCore : Option Nat
  creatorBlock : Nat
  readySince : Nat
  runSince : Nat
  restarts : Nat
  fences : Nat
  /-- sigevs executed in this run, results of all sigevs executed in earlier runs -/
  sigevs : Nat
  sigevLog : List Word
  spawns : Nat
  spawnLog : List SpawnRecord
  /-- holding list: buffer address and net references (R350) -/
  holding : List (Nat × Nat)
  effects : List HeldEffect
  endStatus : Nat
  /-- the invocation this task belongs to, by the index of its result record, and whether it is its root -/
  inv : Option Nat
  root : Bool
  storeError : Option Word
  /-- steps counts the sum of staged key operations (R409) -/
  keyOps : Nat
  /-- digest context held: region and slot (R422) -/
  ctx : Option (Nat × Nat)
  /-- derived-key slots allocated with NEW (R432) -/
  newKeys : List Nat
  deriving DecidableEq, Repr

/-- A core (R278, R283, R312): what runs on it, its trap registers, handler bank and store buffer. -/
structure Core where
  run : Option Nat := none
  idleSince : Nat := 0
  fenced : Bool := false
  trapped : Bool := false
  tcause : Word := 0
  tpc : Word := 0
  tval : Word := 0
  tstat : Word := 0
  tbase : Word := 0
  /-- handler copies of w28 to w31 and p4 to p7 -/
  bankRegs : Vector Word 4 := Vector.replicate 4 0
  bankPreds : BitVec 4 := 0
  hstack : List Word := []
  /-- the part of the return stack of the running task that is on chip, newest first (R291) -/
  rchip : List Word := []
  /-- pc of the handler while `trapped` -/
  hpc : Word := 0
  /-- running privilege (R286) and the image fetched from, 0xFFFF for the firmware image -/
  fw : Bool := false
  slot : Nat := 0xFFFF
  /-- posted stores: address, bytes, oldest first -/
  stores : List (Word × List Byte) := []
  deriving DecidableEq, Repr

/-- An ordered flow (R332). -/
structure Flow where
  slice : Nat
  issue : Word
  turn : Word
  deriving DecidableEq, Repr

/-- A buffer pool (R344 to R354). -/
structure Pool where
  slice : Nat
  log2sz : Nat
  count : Nat
  base : Nat
  region : Nat
  quota : Nat
  dfree : Nat := 0
  /-- allocated buffers: index, reference count, slot that allocated it -/
  used : Tab (Nat × Nat) := []
  deriving DecidableEq, Repr

/-! ### Programs, invocations, results (chapter 10) -/

/-- A program slot (R355 to R359). -/
structure ProgSlot where
  slice : Nat
  closing : Bool := false
  entry : Nat
  code : List Byte
  data : List Byte
  zeroLen : Nat
  stackLen : Nat
  isa : Nat
  version : Nat
  name : List Byte
  keyfp : List Byte
  deriving DecidableEq, Repr

/-- An invocation, by the index of its result record (R360 to R371). -/
structure Invocation where
  h : Sub
  slice : Nat
  slot : Nat
  block : List Byte
  flow : Option Nat
  inKind : Nat
  outKind : Nat
  consume : Bool
  inLen : Nat
  resMax : Nat
  inNsid : Nat
  inSlba : Nat
  inNlb : Nat
  outNsid : Nat
  outSlba : Nat
  outNlb : Nat
  bufs : List Nat
  handle : Nat
  area : Memory
  input : Memory
  results : List Byte := []
  handOuts : List Nat := []
  stagedMib : Nat := 0
  inputMib : Nat := 0
  resMib : Nat := 0
  /-- members of the family that ended without release -/
  failures : Nat := 0
  rootEnd : Option Nat := none
  /-- status of a failed effect of the root's release (R369): type and code -/
  failStatus : Option (Nat × Nat) := none
  /-- namespace and first LBA not written (R369) -/
  failAt : Nat × Nat := (0, 0)
  deriving DecidableEq, Repr

/-- An Invoke that has passed its checks and waits for a task (R321, R364). -/
structure WaitingInvoke where
  inv : Invocation
  /-- home region of the first mapping unit of its LBA input -/
  home : Option Nat
  flowNo : Option Nat
  budget : Nat
  mask : Word
  args : List Word
  deriving DecidableEq, Repr

/-- A result record (R385, R386). -/
structure ResultRecord where
  gen : Nat
  slice : Nat
  mib : Nat
  ready : Bool
  bytes : List Byte
  deriving DecidableEq, Repr

/-- A Scan in progress (R380 to R384). -/
structure ScanOp where
  h : Sub
  slice : Nat
  nsid : Nat
  slba : Nat
  nblk : Nat
  set : Nat
  image : List Byte
  countOnly : Bool
  resMax : Nat
  flow : Option (Nat × Nat)
  handle : Nat
  /-- mapping units of the range not yet filtered -/
  left : List Nat
  failed : List Nat
  /-- matches found: end byte within the range, REPORT, source -/
  glints : List (Nat × Nat × Nat)
  /-- the last bytes of the unit before, for the seam (R382, R419); none after a failed unit -/
  tail : List Byte := []
  deriving DecidableEq, Repr

/-- An Invoke or a Scan that waits at dispatch for a task (R321). -/
inductive WaitingStart where
  | invoke (w : WaitingInvoke)
  | scan (q : ScanOp) (flowNo : Option Nat)
  deriving DecidableEq, Repr

/-! ### Key arrays and pattern sets (chapter 11) -/

/-- A key-array entry (R388). -/
structure KeyEntry where
  value : Nat
  mask : Nat
  prio : Nat
  dat : Nat
  moving : Bool := false
  deriving DecidableEq, Repr

/-- A segment of a table: group's lowest bank and segment number, and its mirror (R389, R394). -/
structure Segment where
  bank : Nat
  seg : Nat
  mirror : Option (Nat × Nat)
  deriving DecidableEq, Repr

/-- A block move in progress (R397, R398): the new entry, its place, and the hole the entries shift toward. -/
structure BlockMove where
  entry : KeyEntry
  place : Nat
  hole : Nat
  deriving DecidableEq, Repr

/-- Changes of a table that wait or run, from one command or release (R404, R407, R409). -/
structure KeyJob where
  /-- the host command that completes with it -/
  h : Option Sub
  insert : Bool
  items : List KeyEntry
  applied : Nat := 0
  missed : Nat := 0
  deriving DecidableEq, Repr

/-- A table: entries by chain position, as the backing image in set S holds them (R390, R410); the rows whose banks hold
another VALUE and MASK, and those whose shadow does not read (R401). -/
structure KeyTable where
  slice : Nat
  width : Nat
  segs : List Segment
  mirror : Bool
  entries : Tab KeyEntry := []
  upset : Tab (Nat × Nat) := []
  shadowBad : List Nat := []
  move : Option BlockMove := none
  /-- changes not yet applied, oldest first -/
  jobs : List KeyJob := []
  deriving DecidableEq, Repr

/-- A pattern set (R414 to R418). -/
structure PatternSet where
  slice : Nat
  image : List Byte
  mib : Nat
  deriving DecidableEq, Repr

/-! ### Digest engine and key store (chapter 12) -/

/-- Who holds a digest context (R422, R437). -/
inductive CtxOwner where
  | task (index : Nat)
  | session (n : Nat)
  deriving DecidableEq, Repr

/-- A hash in progress: compression state, bytes not yet absorbed, bytes fed (R424, R435). -/
structure HashState where
  words : List Nat
  buf : List Byte := []
  count : Nat := 0
  deriving DecidableEq, Repr

/-- A digest context (R424 to R426). -/
structure DigestCtx where
  owner : CtxOwner
  alg : Nat
  hmac : Bool
  keySlot : Nat
  hash : HashState
  busy : Bool
  /-- FINAL accepted, with TOKEY, DG_DEST and FLAG as they stood then -/
  finishing : Bool
  finTokey : Bool := false
  finDest : Nat := 0
  finFlag : Nat := 0
  /-- the fed count equalled DG_LEN when the last absorb had finished (R426) -/
  finEqual : Option Bool := none
  used : Nat
  deriving DecidableEq, Repr

/-- A host digest session (R438 to R440). -/
structure DigestSession where
  h : Sub
  slice : Nat
  alg : Nat
  hmac : Bool
  tokey : Bool
  declared : Nat
  keySlot : Nat
  dest : Nat
  hash : HashState
  region : Nat
  /-- context slot held, none when saved -/
  ctx : Option Nat
  deriving DecidableEq, Repr

/-- Type of a key slot (R443, R447). -/
inductive KeyType where
  | free | identity | xts | derived
  deriving DecidableEq, Repr

/-- A key slot (R443 to R448). -/
structure KeySlot where
  typ : KeyType := .free
  owner : Nat := 0
  gen : Nat := 0
  bits : Nat := 0
  key : List Byte := []
  durable : Bool := false
  cacheAlg : Option Nat := none
  /-- copies failed to unwrap: lost for its owner (R446) -/
  lost : Bool := false
  /-- a system-area block holds an invalid wrapped copy (R445) -/
  stale : Bool := false
  /-- waiting for durability: a task's FINAL (task, flag), or a host command -/
  waitTask : Option (Nat × Nat) := none
  waitHost : Option Sub := none
  deriving DecidableEq, Repr

/-! ### Slices (chapter 13) -/

/-- STATE of a slice (R468). -/
inductive SliceState where
  | none | active | destroying
  deriving DecidableEq, Repr

/-- A slice (R449 to R468). -/
structure Slice where
  state : SliceState := .none
  port : Nat := 0
  pasid : Nat := 0
  qbase : Nat := 0
  qpairs : Nat := 0
  vbase : Nat := 0
  vectors : Nat := 0
  dramMib : Nat := 0
  dramUsed : Nat := 0
  commonMib : Nat := 0
  capGib : Nat := 0
  kaUnits : Nat := 0
  kaUsed : Nat := 0
  slots : Nat := 0
  dctx : Nat := 0
  streamBw : Nat := 0
  weight : Nat := 0
  forerunner : Bool := false
  transFaults : Nat := 0
  dfree : Nat := 0
  /-- a Slice Destroy that waits for the queues: KEEPNS (R467), and the command unless a reset has ended it -/
  keepNs : Bool := false
  destroyer : Option Sub := none
  progFaults : Nat := 0
  budgets : Nat := 0
  lostMem : Nat := 0
  created : Nat := 0
  common : Memory := []
  pools : Memory := []
  deriving DecidableEq, Repr

/-- An entry of the slice translation tables (R462, R463). -/
structure StuEntry where
  slice : Nat
  task : Option Nat
  va : Nat
  size : Nat
  write : Bool
  scratch : Bool
  pa : Nat
  deriving DecidableEq, Repr

/-- The port registers that firmware tasks share: slice translation, key store, supervisor mailbox, trace. -/
structure FwPorts where
  stVa : Word := 0
  stPaLo : Word := 0
  stPaHi : Word := 0
  stAttr : Word := 0
  stStat : Word := 0
  ksSel : Nat := 0
  ksStat : Word := 0
  /-- slot whose KS_CMD waits for its wrapped copies (R448) -/
  ksBusy : Option Nat := none
  svDetail : Word := 0
  svStat : Word := 0
  /-- region a voluntary request waits on, and whether for penumbra (1) or lit (2) -/
  svWait : Option (Nat × Nat) := none
  trEn : Bool := false
  /-- trace words by region: word, datum, core; newest last -/
  trace : Tab (List (Word × Nat × Nat)) := []
  deriving DecidableEq, Repr

/-! ### Temperature, supply, power states (chapter 14) -/

/-- Hysteresis of one threshold (R472): in the state, and consecutive samples that would change it. -/
structure Hyst where
  inside : Bool := false
  count : Nat := 0
  deriving DecidableEq, Repr

/-- A temperature source (R469 to R473, R483). Readings in 0.25 °C units. -/
structure Sensor where
  reading : Option Int := none
  t1 : Hyst := {}
  t2 : Hyst := {}
  t3 : Hyst := {}
  /-- low side of a thermistor window -/
  low : Hyst := {}
  /-- samples at or below 105 °C in a row (R479) -/
  cool : Nat := 0
  broken : Bool := false
  checkFails : Nat := 0
  rangeFails : Nat := 0
  code : Nat := 0
  /-- samples with the same code, and each neighbour's reading at the first of them (R483) -/
  same : Nat := 0
  peers : List (Nat × Int) := []
  nextSample : Nat := 0
  deriving DecidableEq, Repr

/-- Temperature control (R474 to R488). -/
structure Thermal where
  sensors : Tab Sensor := []
  inT1 : Bool := false
  graceStart : Option Nat := none
  level : Nat := 0
  levelAt : Nat := 0
  t3 : Bool := false
  /-- blocks stopped at T2 with the datum of the stop -/
  t2Blocks : List (Nat × Nat) := []
  /-- thresholds of R487: key TMPSEL × 2 + THSEL -/
  temps : Tab Hyst := []
  /-- trips that the next start-up records (R482) -/
  tripsDue : Nat := 0
  /-- datum from which the next self-check of the sensors is due (R483) -/
  checkAt : Nat := 0
  deriving DecidableEq, Repr

/-- Board input and power states (R489 to R496, R579). -/
structure Supply where
  vinDiv : Nat := 12500
  vinWarn : Nat := 1080
  vinReset : Nat := 900
  vin : Nat := 0
  /-- datum from which the next conversion of VIN is due (R490) -/
  convertAt : Nat := 0
  vinMinSecond : Option Nat := none
  overvolted : Bool := false
  ps : Nat := 0
  lastOperational : Nat := 0
  /-- power requests held in dump mode or brown-out service, or entering a non-operational state (R493, R494) -/
  held : List (Sub × Nat) := []
  lastAlert : Nat := 0
  deriving DecidableEq, Repr

/-! ### Faults, service, field book, presence, start-up (chapters 15 to 17) -/

/-- A log 0xC4 entry (R519). -/
structure LogEntry where
  seq : Nat := 0
  level : Nat := 0
  cls : Nat := 0
  outcome : Nat := 0
  event : Nat := 0
  datum : Nat := 0
  opsec : Nat := 0
  pcc : Nat := 0
  site : Site := { kind := 0, index := 0 }
  slice : Nat := 0xFFFF
  addr : Nat := 0
  aux0 : Nat := 0
  aux1 : Nat := 0
  related : Nat := 0
  deriving DecidableEq, Repr

/-- A retired unit (R508): whether one passed self-test restores it. -/
structure RetiredUnit where
  site : Site
  restorable : Bool
  deriving DecidableEq, Repr

/-- Fault records and redundant chip units (R502, R506 to R508, R517 to R519). -/
structure Faults where
  ring : List LogEntry := []
  newest : Nat := 0
  maskedEver : Nat := 0
  detectedEver : Nat := 0
  masked : Nat := 0
  detected : Nat := 0
  retired : List RetiredUnit := []
  /-- lane mismatches: unit and operating second (R442, R502) -/
  lanes : List (Site × Nat) := []
  /-- active queue manager (0 A, 1 B) and state of each: 0 ok, 1 testing, 2 retired -/
  qmActive : Nat := 0
  qm : Vector Nat 2 := Vector.replicate 2 0
  qmRestoredAt : Option Nat := none
  /-- supervisor copies: 0 ok, 1 resynchronising, 2 retired -/
  sup : Vector Nat 3 := Vector.replicate 3 0
  supStopped : Bool := false
  deriving DecidableEq, Repr

/-- An extreme of the field book (R527). -/
structure Extreme where
  value : Int
  opsec : Nat
  source : Nat
  pcc : Nat
  deriving DecidableEq, Repr

/-- The field book (R526 to R535). -/
structure FieldBook where
  counters : Tab Nat := []
  extremes : Tab Extreme := []
  /-- histograms by byte offset of the counter in log 0xC1 -/
  hist : Tab Nat := []
  ldpc : Tab Nat := []
  /-- newest first: CAP, ESR, OPSEC, PCC -/
  holdup : List (Nat × Nat × Nat × Nat) := []
  ecHist : List Nat := []
  gen : Nat := 0
  flushCause : Nat := 0
  norGen : Nat := 0
  nandGen : Nat := 0
  flushOpsec : Nat := 0
  flushPcc : Nat := 0
  clears : Nat := 0
  clearOpsec : Nat := 0
  clearPcc : Nat := 0
  clearArea : List (Nat × Nat × Nat) := []
  flushing : Option Nat := none
  again : Option Nat := none
  /-- Field Book Clear commands that wait for the next flush, and those that complete with the flush under way -/
  clearers : List Sub := []
  flushWaiters : List Sub := []
  deriving DecidableEq, Repr

/-- STATE of presence (R536). -/
inductive PresenceState where
  | idle | armed | opened
  deriving DecidableEq, Repr

/-- Physical presence and the seal loop (R536 to R541). -/
structure Presence where
  state : PresenceState := .idle
  deadline : Nat := 0
  left : Nat := 0
  serviceLow : Bool := false
  debug : Bool := false
  sealA : Bool := false
  mismatches : Nat := 0
  matched : Nat := 0
  /-- the next comparison of SEAL_B is due (R541) -/
  sealAt : Nat := 0
  sealNow : Bool := false
  sealOpened : Bool := false
  deriving DecidableEq, Repr

/-- A firmware slot (R543 to R547). -/
structure FwSlot where
  valid : Bool := false
  authorised : Bool := false
  fr : List Byte := []
  build : Nat := 0
  secver : Nat := 0
  compatMin : Nat := 0
  raise : Bool := false
  deriving DecidableEq, Repr

/-- Rolling activation (R523 to R525). -/
structure Activation where
  /-- the Firmware Commit, unless a reset has ended it -/
  h : Option Sub
  slot : Nat
  step : Nat
  region : Nat
  startedAt : Nat
  deriving DecidableEq, Repr

/-- A copy of the boot directory (R544): its sequence number, the active and the pending slot, the slots that are valid
and those that presence has authorised. -/
structure DirCopy where
  seq : Nat := 0
  active : Nat := 1
  pending : Option Nat := none
  valid : List Nat := []
  authorised : List Nat := []
  deriving DecidableEq, Repr

/-- Start-up, boot images and straps (R542 to R554). -/
structure Startup where
  done : Bool := false
  stopped : Bool := false
  waitingHot : Bool := false
  /-- tick 0 of this start-up, once it is known (R542, R131) -/
  tick0 : Option Nat := none
  input : Option StartupInput := none
  portMode : Bool := false
  priorSel : Bool := false
  bootGoldN : Bool := true
  huValid : Bool := false
  strap : Option StrapImage := none
  slots : Tab FwSlot := []
  dir0 : DirCopy := {}
  dir1 : DirCopy := {}
  active : Nat := 1
  /-- the slot that the next start-up tries first (R544, R547) -/
  pending : Option Nat := none
  /-- the port whose next controller reset activates the pending slot (R99) -/
  pendingReset : Option PortId := none
  /-- the slot whose supervisor image runs (R69, R524) -/
  supActive : Nat := 1
  minVersion : Nat := 0
  /-- the regions have been powered in this start-up (R70) -/
  regionsUp : Bool := false
  download : Memory := []
  downloadLen : Nat := 0
  activation : Option Activation := none
  /-- regions that run the new firmware -/
  activationRegions : List Nat := []
  deriving DecidableEq, Repr

/-! ### The whole -/

/-- The state of the device. -/
structure State where
  /-- commands that wait, first in first out -/
  pending : List Instr := []
  datum : Nat := 0
  vaon : Bool := true
  oscillator : Bool := false
  /-- datum copies of regions 0 to 7 and of the front end (R26) -/
  copies : Tab Nat := []
  opsec : Nat := 0
  /-- datum at which the operating second under way began -/
  secAt : Nat := 0
  pcc : Nat := 1
  /-- draws made from the free values of `Config` (the model's own field) -/
  drawn : Nat := 0
  regions : Tab Region := []
  domains : Tab DomainState := []
  /-- domains that wait for a place of R58, first in first out -/
  powerQueue : List Nat := []
  /-- arbiters, by `arbKey` -/
  arbiters : Tab Arbiter := []
  /-- best-effort dispatches of each region's scheduler, by slice (R327, R455) -/
  dispatched : Tab (Tab Nat) := []
  /-- the last deadline given to each kind of budgeted work (R52) -/
  ledger : Tab Nat := []
  late : Nat := 0
  vcore : Vcore := {}
  base : Baseline := {}
  ports : Tab HostPort := []
  features : Features := {}
  mi : ManagementIf := {}
  /-- host commands fetched and not completed (R79) -/
  held : List HeldCmd := []
  /-- completions decided and not yet posted, oldest first (R83) -/
  decided : List Completion := []
  writes : List WriteOp := []
  lines : List BufferLine := []
  holdUp : HoldUp := {}
  dump : Dump := {}
  resvs : List Reservation := []
  resvGen : Nat := 0
  namespaces : Tab Namespace := []
  /-- commands that wait for their turn on their namespaces, in order of receipt (R169) -/
  turns : List NsTurn := []
  nsMade : Nat := 0
  media : Media := {}
  smart : Smart := {}
  dram : Dram := {}
  setU : Memory := []
  cores : Tab Core := []
  tasks : Tab Task := []
  gens : Tab Nat := []
  flows : Tab Flow := []
  poolTab : Tab Pool := []
  progs : Tab ProgSlot := []
  invs : Tab Invocation := []
  waitingInvokes : List WaitingStart := []
  scans : List ScanOp := []
  /-- host account of each slice: buffer references (R367) -/
  accounts : Tab (List Nat) := []
  results : Tab ResultRecord := []
  resultGens : Tab Nat := []
  tables : Tab KeyTable := []
  /-- datum from which a key-array bank has been loaded from the image and verified (R412) -/
  bankReady : Tab Nat := []
  sets : Tab PatternSet := []
  /-- sets removed or replaced that a scan still uses: number and set (R415) -/
  oldSets : List (Nat × PatternSet) := []
  /-- filter memory: unit, sets held, most recently used first (R420) -/
  filters : Tab (List (List Byte)) := []
  contexts : Tab DigestCtx := []
  sessions : Tab DigestSession := []
  /-- slot 0 holds the identity key of manufacture (R443) -/
  keys : Tab KeySlot := [(0, { typ := .identity, bits := 256, key := Config.identityKey, durable := true })]
  /-- log 0xC2 view 2: the certificate of the identity key (R164, R539) -/
  certificate : List Byte := Config.identityCertificate
  slices : Tab Slice := []
  sliceGen : Nat := 0
  scrubMib : Nat := 0
  stu : List StuEntry := []
  fwPorts : FwPorts := {}
  thermal : Thermal := {}
  supply : Supply := {}
  faults : Faults := {}
  book : FieldBook := {}
  /-- content of a flush under way (R533) -/
  flushImage : Option (FieldBook × Faults) := none
  /-- the slots of the field book, 0 and 1 in the NOR, 2 and 3 in the NAND (R533); a slot that is erased is not listed.
  The two of an empty book are as manufactured (DESIGN CHOICE, assumption 157) -/
  bookSlots : Tab (FieldBook × Faults) := [(0, ({}, {})), (2, ({}, {}))]
  presence : Presence := {}
  startup : Startup := {}
  deriving DecidableEq, Repr

/-- The device right after VAON power-good, before the first deassertion of PERST# (R23, R542). The reset values the
spec gives are those of its field maps; the others are named in notes/assumptions. -/
def State.reset : State := {}

end Sys2Proof.Machine
end

