-- ==== Sys2Proof/Machine/Ops.lean ====
section
/-! DEFINITION. The operations that the families share: free values, regions, the fault record and the field book,
events, completions, journal records, event flags of tasks, slices and their memory, and the tick of the datum. -/

namespace Sys2Proof.Machine

/-- What a meaning answers. -/
abbrev Out := Host.Outcome State Fault Refusal

/-! ### Time and free values -/

/-- One tick of the datum, which counts while VAON holds (R22, R23); every copy counts with it (R26). -/
def tick (s : State) : State :=
  if s.vaon then
    { s with datum := (s.datum + 1) % 2 ^ 64, copies := s.copies.map (fun c => (c.1, (c.2 + 1) % 2 ^ 64)) }
  else s

/-- The next free number, which the spec leaves open. -/
def freeNat (s : State) : Nat := Config.freeNat s.drawn

/-- The next free byte, which the spec leaves undefined. -/
def freeByte (s : State) (i : Nat) : Byte := Config.freeByte (s.drawn + i)

/-- The state after `n` draws of free values. -/
def drew (n : Nat) (s : State) : State := { s with drawn := s.drawn + n }

/-! ### Regions (R11, R33, R509) -/

/-- Region `r`. -/
def region (s : State) (r : Nat) : Region := Tab.getD s.regions r {}

/-- Changes region `r`. -/
def setRegion (s : State) (r : Nat) (g : Region) : State := { s with regions := Tab.set s.regions r g }

/-- True when region `r` is lit. -/
def isLit (s : State) (r : Nat) : Bool := decide ((region s r).state = .lit)

/-- The lit regions, lowest first. -/
def litRegions (s : State) : List Nat := (List.range 8).filter (isLit s)

/-- The next lit region after `r` in ascending order modulo 8; `r` itself when there is no other (R180). -/
def nextLit (s : State) (r : Nat) : Nat :=
  (((List.range 8).map fun i => (r + 1 + i) % 8).find? (isLit s)).getD r

/-- The region that serves what belongs to home region `r`: itself while lit, else the next lit one (R180, R345). -/
def serving (s : State) (r : Nat) : Nat := if isLit s r then r else nextLit s r

/-- Region states that count as out of service (R48, R511). -/
def regionsOut (s : State) : Nat := 8 - (litRegions s).length

/-- A mask with bit r for each region that satisfies `p`. -/
def regionMask (p : Nat → Bool) : Nat := ((List.range 8).map fun r => flagBit (p r) r).sum

/-- The number of a region's state in PACE_Rn and log 0xC5 (R33). -/
def stateCode (g : Region) : Nat :=
  match g.state with
  | .lit => 0
  | .penumbra => 1
  | .umbra => 2
  | .retired => 3

/-- The region of a core (R11). -/
def regionOf (c : CoreId) : Nat := c.val / 32

/-- The block number, 0 to 31, of a core (R11). -/
def blockOf (c : CoreId) : Nat := c.val / 8

/-! ### Power domains (R55 to R60) -/

/-- Key of a domain: region × 47 + number (R55). -/
def domainKey (r i : Nat) : Nat := 47 * r + i

/-- State of a domain: its own, else its region's power. -/
def domainState (s : State) (r i : Nat) : DomainState :=
  (Tab.get? s.domains (domainKey r i)).getD (if (region s r).powered then .on else .off)

/-- Changes the state of a domain. -/
def setDomain (s : State) (r i : Nat) (d : DomainState) : State :=
  { s with domains := Tab.set s.domains (domainKey r i) d }

/-- True when a domain is on. -/
def domainOn (s : State) (r i : Nat) : Bool := decide (domainState s r i = .on)

/-- The domain that a unit lies in, by region and number; chip units, media and sensors lie in none (R55, R56, R521). -/
def siteDomain (t : Site) : Option (Nat × Nat) :=
  match t.kind with
  | 0 => some (t.index / 32, t.index % 32)
  | 1 => some (t.index / 4, 32 + t.index % 4)
  | 2 => some (t.index, 46)
  | 3 => some (t.index / 4, 36 + t.index % 4)
  | 4 => some (t.index / 4, 40 + t.index % 4)
  | 5 => some (t.index / 8, 32 + t.index / 2 % 4)
  | 6 => some (t.index / 2, 44 + t.index % 2)
  | _ => none

/-- A unit has power. -/
def sitePowered (s : State) (t : Site) : Bool :=
  match siteDomain t with
  | some (r, i) => domainOn s r i
  | none => true

/-- The handshakes of the units that satisfy `p` are brought to the spacer state: a grant that one holds ends (R15,
R60). -/
def toSpacer (p : Site → Bool) (s : State) : State :=
  { s with arbiters := s.arbiters.map fun a => (a.1, match a.2.granted with
    | some q => if p q.unit then { a.2 with granted := none } else a.2
    | none => a.2) }

/-- Switches a domain off, its handshakes first (R60). -/
def switchOff (r i : Nat) (s : State) : State :=
  let s := toSpacer (fun t => decide (siteDomain t = some (r, i))) s
  setDomain { s with powerQueue := s.powerQueue.filter fun k => decide (k ≠ domainKey r i) } r i .off

/-- Domains in power-up on the chip, not counting the wakes of core cells (R58). -/
def poweringCount (s : State) : Nat :=
  (s.domains.filter fun d => match d.2 with
    | .poweringUp _ wake => !wake
    | _ => false).length

/-- Domains that wait are switched on while one of the 8 places is free (R58). -/
def takePlaces (s : State) : State :=
  let n := 8 - poweringCount s
  (s.powerQueue.take n).foldl (fun s k => { s with domains := Tab.set s.domains k (.poweringUp s.datum false) })
    { s with powerQueue := s.powerQueue.drop n }

/-- Domains are to be switched on: they wait for places in the order given (R58). -/
def askPower (keys : List Nat) (s : State) : State := takePlaces { s with powerQueue := s.powerQueue ++ keys }

/-- The domains of a region in the order of their power-up (R58): fabric and scheduler, blocks, engines, banks, cells. The
hasher and the digest engine go with the engines (DESIGN CHOICE, assumption 125). -/
def powerOrder (r : Nat) : List Nat :=
  ([46] ++ (List.range 4).map (· + 32) ++ (List.range 4).map (· + 36) ++ [44, 45] ++ (List.range 4).map (· + 40)
    ++ List.range 32).map (domainKey r)

/-! ### The field book (R526 to R533) -/

/-- Adds one to a 32-bit counter of the field book (R529); counters saturate (R526). -/
def bookCount (i : Nat) (s : State) : State :=
  { s with book := { s.book with counters := Tab.set s.book.counters i (satAdd 32 (Tab.getD s.book.counters i 0) 1) } }

/-- Adds one to the histogram counter at byte `o` of log 0xC1 (R531). -/
def bookHist (o : Nat) (s : State) : State :=
  { s with book := { s.book with hist := Tab.set s.book.hist o (satAdd 32 (Tab.getD s.book.hist o 0) 1) } }

/-- Records `v` as extreme `k`, with its stamp (R527). -/
def bookSet (k : Nat) (v : Int) (source : Nat) (s : State) : State :=
  let e : Extreme := { value := v, opsec := s.opsec, source := source, pcc := s.pcc }
  { s with book := { s.book with extremes := Tab.set s.book.extremes k e } }

/-- A reading replaces a maximum only when strictly greater (R527). -/
def bookMax (k : Nat) (v : Int) (source : Nat) (s : State) : State :=
  match Tab.get? s.book.extremes k with
  | none => bookSet k v source s
  | some e => if e.value < v then bookSet k v source s else s

/-- A reading replaces a minimum only when strictly less (R527). -/
def bookMin (k : Nat) (v : Int) (source : Nat) (s : State) : State :=
  match Tab.get? s.book.extremes k with
  | none => bookSet k v source s
  | some e => if v < e.value then bookSet k v source s else s

/-- A flush trigger (R532): a flush is due; triggers that wait are merged. -/
def flushDue (cause : Nat) (s : State) : State :=
  { s with book := { s.book with again := s.book.again.or (some cause) } }

/-! ### The SPI NOR (R543, R544) -/

/-- What an area of the SPI NOR holds (R543); a firmware slot by its number. -/
inductive NorArea where
  | directory | strap | clearArea | book | slot (n : Nat)
  deriving DecidableEq, Repr

/-- Address and size of an area (R543). -/
def norArea : NorArea → Nat × Nat
  | .directory => (0x00000000, 0x10000)
  | .strap => (0x00010000, 0x20000)
  | .clearArea => (0x00030000, 0x10000)
  | .book => (0x00040000, 0x40000)
  | .slot n => (n * 0x01000000, 0x01000000)

/-- The directory as it stands, for a copy with sequence number `seq` (R544). -/
def directoryNow (u : Startup) (seq : Nat) : DirCopy :=
  { seq := seq, active := u.active, pending := u.pending
    valid := [2, 3].filter fun n => (Tab.getD u.slots n {}).valid
    authorised := [2, 3].filter fun n => (Tab.getD u.slots n {}).authorised }

/-- Writes the boot directory, the copy with the lower sequence number first (R544). -/
def writeDirectory (s : State) : State :=
  let u := s.startup
  { s with startup :=
    if u.dir0.seq ≤ u.dir1.seq then
      { u with dir0 := directoryNow u (u.dir1.seq + 1), dir1 := directoryNow u (u.dir1.seq + 2) }
    else { u with dir1 := directoryNow u (u.dir0.seq + 1), dir0 := directoryNow u (u.dir0.seq + 2) } }

/-! ### Events (R92, R517) -/

/-- Applies `f` to every port that is present. -/
def onPorts (f : HostPort → HostPort) (s : State) : State :=
  { s with ports := s.ports.map fun p => (p.1, if p.2.present then f p.2 else p.2) }

/-- A port. -/
def portOf (s : State) (p : PortId) : HostPort := Tab.getD s.ports p.val {}

/-- Changes a port. -/
def setPort (s : State) (p : PortId) (q : HostPort) : State := { s with ports := Tab.set s.ports p.val q }

/-- Queues an event of a port: an event identical in type and information to one pending, or reported and not yet
read, is merged; type 7h is never merged (R92). -/
def queueEvent (e : AsyncEvent) (p : HostPort) : HostPort :=
  let same := fun x : AsyncEvent => decide (x.typ = e.typ ∧ x.info = e.info)
  if e.typ ≠ 7 && (p.events.any same || p.unread.any same) then p else { p with events := p.events ++ [e] }

/-- Raises an event on every port (R92). -/
def raiseAll (e : AsyncEvent) (s : State) : State := onPorts (queueEvent e) s

/-- True when the Asynchronous Event Configuration feature enables bit `i` (R86). -/
def eventEnabled (s : State) (i : Nat) : Bool := bit s.features.asyncCfg.toNat i

/-- Raises a notice (type 2h) when its enable bit is set (R86, R92). -/
def notice (enable info log : Nat) (s : State) : State :=
  if eventEnabled s enable then raiseAll { typ := 2, info := info, log := log } s else s

/-- Raises a SMART/Health event (type 1h) when its Critical Warning bit is enabled (R86, R214). -/
def smartEvent (warnBit info : Nat) (s : State) : State :=
  if eventEnabled s warnBit then raiseAll { typ := 1, info := info, log := 2 } s else s

/-! ### The fault record (R517 to R522) -/

/-- Writes an entry of log 0xC4 (R519): it is stamped, counted in FAULTS and in the field book (R70, R531), an
OUTCOME 1 triggers a flush (R532), and its event is raised after it is written (R517). -/
def record (e : LogEntry) (s : State) : State :=
  let seq := s.faults.newest + 1
  let e := { e with seq := seq, datum := s.datum, opsec := s.opsec, pcc := s.pcc }
  let f := s.faults
  let f := { f with
    ring := (e :: f.ring).take 256
    newest := seq
    maskedEver := if e.outcome = 0 then satAdd 32 f.maskedEver 1 else f.maskedEver
    detectedEver := if e.outcome = 1 then satAdd 32 f.detectedEver 1 else f.detectedEver
    masked := if e.outcome = 0 then satAdd 16 f.masked 1 else f.masked
    detected := if e.outcome = 1 then satAdd 16 f.detected 1 else f.detected }
  let s := bookHist (5248 + 256 * e.level + 4 * e.cls) { s with faults := f }
  let s := if e.outcome = 1 then flushDue 1 s else s
  if e.event = 0 then s else raiseAll { typ := 7, info := e.event, log := 0xC4, seq := seq } s

/-- A masked fault: OUTCOME 0 and event 0x01 (R517). -/
def recordMasked (e : LogEntry) (s : State) : State := record { e with outcome := 0, event := 1 } s

/-- A fault masked by an involuntary eclipse: OUTCOME 0 and no event (R517). -/
def recordMaskedByEclipse (e : LogEntry) (s : State) : State := record { e with outcome := 0, event := 0 } s

/-- A detected fault: OUTCOME 1 and no event (R517). -/
def recordDetected (e : LogEntry) (s : State) : State := record { e with outcome := 1, event := 0 } s

/-- A record that is not a fault: OUTCOME 2 with the given event (R519). -/
def recordNote (e : LogEntry) (event : Nat) (s : State) : State := record { e with outcome := 2, event := event } s

/-- A fault for which the spec names no class: the class is a free value (assumption 11). -/
def recordNoClass (site : Site) (masked : Bool) (s : State) : State :=
  let e : LogEntry := { level := 3, cls := freeNat s % 64, site := site }
  if masked then recordMasked e (drew 1 s) else recordDetected e (drew 1 s)

/-- SITE KIND 11 (R521). -/
def chipUnit (i : Nat) : Site := { kind := 11, index := i }

/-- Event 0x04 by a class 0x38 entry naming the rule, when any reservation is admitted (R517, R522). -/
def atRiskNotice (rule : Nat) (site : Site) (related : Nat) (s : State) : State :=
  if s.resvs.isEmpty then s
  else recordNote { level := 3, cls := 0x38, site := site, aux0 := rule, related := related } 4 s

/-- LEVEL of an entry for a unit (R12, R519). -/
def levelOf (t : Site) : Nat :=
  match t.kind with
  | 0 | 3 | 4 => 0
  | 1 => 1
  | 5 => if t.index % 2 = 1 then 0 else 1
  | 2 | 6 => 2
  | 7 | 8 => 4
  | 9 | 11 => 3
  | 10 => if t.index < 32 then 1 else if t.index < 40 then 2 else if t.index < 64 then 3 else 5
  | _ => 3

/-! ### Retirement and the baseline trigger (R44, R508) -/

/-- A trigger starts the baseline computation, or starts it again (R44, R45). -/
def baselineTrigger (trigger : Nat) (s : State) : State :=
  { s with base := { s.base with running := true, trigger := trigger, deadline := s.datum + 1000000 } }

/-- True when a unit is retired (R508). -/
def unitRetired (s : State) (t : Site) : Bool := s.faults.retired.any fun u => decide (u.site = t)

/-- Retires a unit: it gets no further grant, and a retirement triggers a baseline computation (R15, R44, R508). -/
def retireUnit (t : Site) (restorable : Bool) (s : State) : State :=
  if unitRetired s t then s
  else baselineTrigger 1
    { toSpacer (fun u => decide (u = t)) s with
      faults := { s.faults with retired := s.faults.retired ++ [{ site := t, restorable := restorable }] } }

/-- Restores a retired unit (R508, R44). -/
def restoreUnit (t : Site) (s : State) : State :=
  if unitRetired s t then baselineTrigger 1
    { s with faults := { s.faults with retired := s.faults.retired.filter fun u => decide (u.site ≠ t) } }
  else s

/-- The core's unit (R521). -/
def coreSite (c : Nat) : Site := { kind := 0, index := c }

/-- The unit of a key-array bank (R521). -/
def bankSite (k : Nat) : Site := { kind := 4, index := k }

/-- A sensor's record. -/
def sensorOf (s : State) (n : Nat) : Sensor := Tab.getD s.thermal.sensors n {}

/-- A reading within `d` of a threshold of a list (R471). -/
def nearAny (d : Int) (thresholds : List Int) (t : Int) : Bool := thresholds.any fun x => decide (x - d ≤ t ∧ t ≤ x + d)

/-- True when core `c` can run tasks: its region is lit, or in penumbra for what runs already, and neither it nor its
block is retired, fenced or stopped at T2 (R15, R478, R509). -/
def coreUsable (s : State) (c : Nat) : Bool :=
  !unitRetired s (coreSite c) && !unitRetired s { kind := 1, index := c / 8 } && !(Tab.getD s.cores c {}).fenced
    && !(s.thermal.t2Blocks.any fun b => decide (b.1 = c / 8))

/-! ### Lane mismatches (R442, R502) -/

/-- A mismatch between two lanes of a unit, whose result instance `inst` delivers: masked; a second one within an hour
of operation retires the unit, which an inline hasher records as detected (R442, R502). `twice`: the repeat has
mismatched too, which makes two. The spec does not number the operations that AUX0 holds: it is a free value (assumption
17). -/
def laneFault (t : Site) (inst : Nat) (hasher twice : Bool) (s : State) : State :=
  let again := twice || s.faults.lanes.any fun e => decide (e.1 = t ∧ s.opsec < e.2 + 3600)
  let e : LogEntry := { level := levelOf t, cls := 0x08, site := t, aux0 := freeNat s, aux1 := inst }
  let s := drew 1 s
  let s := if again && hasher then recordDetected e s else recordMasked e s
  let s := { s with faults := { s.faults with lanes := (t, s.opsec) :: s.faults.lanes.filter fun e => decide (e.1 ≠ t) } }
  if again then retireUnit t false s else s

/-- What a unit of R502 does about its lanes: a mismatch is repeated on the unit itself, then on instance `other`. -/
def laneCheck (t : Site) (other : Nat) (c : LaneCheck) (s : State) : State :=
  match c with
  | .agree => s
  | .repeatAgrees => laneFault t t.index false false s
  | .repeatDiffers => laneFault t other false true s

/-! ### Presence (R536 to R538) -/

/-- A presence window is open. -/
def windowOpen (s : State) : Bool := decide (s.presence.state = .opened)

/-- A privileged command begins to act: it counts against the window, which closes with its eighth (R537, R538), and in
field-book counter `i`. -/
def usePrivileged (i : Nat) (s : State) : State :=
  let p := s.presence
  bookCount i { s with presence :=
    if p.left ≤ 1 then { p with left := 0, state := .idle } else { p with left := p.left - 1 } }

/-! ### Completions (R79, R83) -/

/-- A status: status code type and code. -/
structure Status where
  sct : Nat
  sc : Nat
  deriving DecidableEq, Repr

/-- Successful completion. -/
def sOk : Status := { sct := 0, sc := 0 }
/-- Invalid Command Opcode. -/
def sOpcode : Status := { sct := 0, sc := 0x01 }
/-- Invalid Field in Command (R10). -/
def sField : Status := { sct := 0, sc := 0x02 }
/-- Data Transfer Error: a host transfer failed. -/
def sTransfer : Status := { sct := 0, sc := 0x04 }
/-- Internal Error. -/
def sInternal : Status := { sct := 0, sc := 0x06 }
/-- Command Aborted due to SQ Deletion (R95). -/
def sSqDeleted : Status := { sct := 0, sc := 0x08 }
/-- Invalid Namespace or Format. -/
def sNamespace : Status := { sct := 0, sc := 0x0B }
/-- LBA Out of Range. -/
def sLba : Status := { sct := 0, sc := 0x80 }
/-- Capacity Exceeded. -/
def sCapacity : Status := { sct := 0, sc := 0x81 }
/-- A command specific status. -/
def sCmd (c : Nat) : Status := { sct := 1, sc := c }
/-- A media and data integrity status. -/
def sMedia (c : Nat) : Status := { sct := 2, sc := c }
/-- A vendor status (R91). -/
def sVendor (c : Nat) : Status := { sct := 7, sc := c }

/-- Decides a completion: it waits to be posted (R83). A status other than success adds an entry to the port's Error
Information log, with the LBA and namespace given; status 0x85 is counted (R529). -/
def completeAt (h : Sub) (st : Status) (dw0 dw1 : Nat) (data : List Byte) (nsid lba : Nat) (s : State) : State :=
  let s := { s with decided := s.decided ++
    [{ h := h, sct := st.sct, sc := st.sc, dw0 := BitVec.ofNat 32 dw0, dw1 := BitVec.ofNat 32 dw1, data := data }] }
  let s :=
    if st = sOk then s
    else
      let p := portOf s h.port
      let e : ErrorEntry := { count := p.errorCount + 1, sq := h.sq, cid := h.cid, sct := st.sct, sc := st.sc, lba := lba, nsid := nsid }
      setPort s h.port { p with errorCount := p.errorCount + 1, errorLog := (e :: p.errorLog).take 256 }
  if st = sVendor 0x85 then bookCount 2 s else s

/-- Decides a completion that names no LBA. -/
def complete (h : Sub) (st : Status) (dw0 dw1 : Nat) (data : List Byte) (s : State) : State :=
  completeAt h st dw0 dw1 data 0 0 s

/-- Completes with success and no result. -/
def completeOk (h : Sub) (s : State) : State := complete h sOk 0 0 [] s

/-- Completes with a status and no result. -/
def refuse (h : Sub) (st : Status) (s : State) : State := complete h st 0 0 [] s

/-! ### Slices (R449, R450, R453) -/

/-- The slice a command on a queue acts for (R450). -/
def actSlice (s : State) (h : Sub) : Nat :=
  if h.sq = 0 then 0
  else match Tab.get? (portOf s h.port).sqs h.sq with
    | some q => q.slice
    | none => 0

/-- Slice `n`. -/
def sliceOf (s : State) (n : Nat) : Slice := Tab.getD s.slices n {}

/-- Changes slice `n`. -/
def setSlice (s : State) (n : Nat) (x : Slice) : State := { s with slices := Tab.set s.slices n x }

/-- Applies `f` to slice `n`. -/
def modSlice (n : Nat) (f : Slice → Slice) (s : State) : State := setSlice s n (f (sliceOf s n))

/-- The tenant slices that exist. -/
def tenants (s : State) : List (Nat × Slice) :=
  s.slices.filter fun p => decide (p.1 ≠ 0 ∧ p.2.state ≠ .none)

/-- Compute memory of a slice in MiB; slice 0 holds what no tenant slice holds and what does not wait for its fill
(R453, R467). -/
def dramAllot (s : State) (n : Nat) : Nat :=
  if n = 0 then s.dram.filledMib - ((tenants s).map fun p => p.2.dramMib).sum - s.scrubMib
  else (sliceOf s n).dramMib

/-- MiB that hold `n` bytes, rounded up. -/
def mibOf (n : Nat) : Nat := ceilDiv n 1048576

/-- Bytes of the private segment of a program: data, zero section, stack (R371). -/
def privBytes (g : ProgSlot) : Nat := g.data.length + g.zeroLen + g.stackLen

/-- MiB of the private segments of a slice's program tasks, which count against the slice (R371). -/
def privMib (s : State) (n : Nat) : Nat :=
  (s.tasks.map fun p =>
    if p.2.fw = false ∧ p.2.slice = n then ((Tab.get? s.progs p.2.slot).map fun g => mibOf (privBytes g)).getD 0
    else 0).sum

/-- Compute memory in use by a slice, MiB (R453, R371). -/
def dramInUse (s : State) (n : Nat) : Nat := (sliceOf s n).dramUsed + privMib s n

/-- True when slice `n` can be charged `mib` more (R453). -/
def dramRoom (s : State) (n mib : Nat) : Bool := decide (dramInUse s n + mib ≤ dramAllot s n)

/-- Charges compute memory to a slice. -/
def charge (n mib : Nat) (s : State) : State := modSlice n (fun x => { x with dramUsed := x.dramUsed + mib }) s

/-- Returns compute memory of a slice. -/
def credit (n mib : Nat) (s : State) : State := modSlice n (fun x => { x with dramUsed := x.dramUsed - mib }) s

/-- True when a slice is in forerunner mode (R554). -/
def forerunner (s : State) (n : Nat) : Bool :=
  if n = 0 then s.startup.priorSel else (sliceOf s n).forerunner

/-- Core-time weight of a slice (R455). -/
def weightOf (s : State) (n : Nat) : Nat := if n = 0 then 100 else (sliceOf s n).weight

/-! ### Namespaces -/

/-- Namespace `n`. -/
def nsOf (s : State) (n : Nat) : Option Namespace := Tab.get? s.namespaces n

/-- Changes namespace `n`. -/
def setNs (n : Nat) (x : Namespace) (s : State) : State := { s with namespaces := Tab.set s.namespaces n x }

/-- Applies `f` to namespace `n` when it exists. -/
def modNs (n : Nat) (f : Namespace → Namespace) (s : State) : State :=
  { s with namespaces := Tab.modify s.namespaces n f }

/-- Bytes of a logical block: LBA format 0 is 512 bytes, 1 is 4 KiB (R76). -/
def blockBytes (n : Namespace) : Nat := if n.lbaf = 0 then 512 else 4096

/-- True when the controller of a port has the namespace attached: CNTLID 1 on PE0, 2 on PE1 (R61). -/
def attached (n : Namespace) (p : PortId) : Bool := n.ctrls.contains (p.val + 1)

/-! ### The journal (R189, R190) -/

/-- KIND of a record (R189). -/
def recordKind (b : JournalBody) : Nat :=
  match b with
  | .granule .. => 0x01
  | .move .. => 0x02
  | .sbState .. => 0x03
  | .retire .. => 0x04
  | .seals .. => 0x05
  | .stream .. => 0x06
  | .nsChange .. => 0x07
  | .dump .. => 0x08
  | .checkpoint .. => 0x09
  | .monument .. => 0x0A

/-- Bytes 0 to 15 of a record but for its CRC: SEQ, KIND, FLAGS and LEN (R189). -/
def recordHead (seq kind len : Nat) : List Byte := toLe 8 seq ++ toLe 1 kind ++ [0] ++ toLe 2 len

/-- A journal record as it is programmed (R189). The spec lays out its header; the layout of its content is open (free
value), and so is the value of the CRC's own bytes while it is computed (DESIGN CHOICE, assumption 142: zero). -/
def journalRecord (seq : Nat) (b : JournalBody) : List Byte :=
  let content := Config.recordContent (recordKind b) seq
  let head := recordHead seq (recordKind b) (16 + content.length)
  head ++ toLe 4 (crc32c (head ++ zeros 4 ++ content)).toNat ++ content

/-- Enters a journal record, which is not yet durable on NAND (R189). -/
def journalPut (b : JournalBody) (s : State) : State :=
  let m := s.media
  { s with media := { m with
    seq := m.seq + 1
    clean := false
    journalBytes := m.journalBytes + 16 + (Config.recordContent (recordKind b) (m.seq + 1)).length
    journal := m.journal ++ [{ seq := m.seq + 1, body := b }] } }

/-! ### Tasks and their event flags (R318, R324 to R326) -/

/-- Task at index `t`. -/
def taskOf (s : State) (t : Nat) : Option Task := Tab.get? s.tasks t

/-- Changes the task at index `t`. -/
def setTask (s : State) (t : Nat) (k : Task) : State := { s with tasks := Tab.set s.tasks t k }

/-- Applies `f` to the task at index `t` when it exists. -/
def modTask (t : Nat) (f : Task → Task) (s : State) : State := { s with tasks := Tab.modify s.tasks t f }

/-- The tid of a task (R318). -/
def tidOf (t : Nat) (k : Task) : Word := BitVec.ofNat 32 (k.gen % 32768 * 65536 + t % 16384)

/-- A mask is satisfied in "any" or "all" mode (R325). -/
def maskMet (flags mask : Word) (all : Bool) : Bool :=
  if all then flags &&& mask == mask else flags &&& mask != 0

/-- Delivers a flag to a task, which becomes ready when its mask is satisfied (R324 to R326). -/
def deliver (f : Nat) (now : Nat) (k : Task) : Task :=
  let b : Word := 1#32 <<< (f % 32)
  let k := { k with flags := k.flags ||| b, delivered := k.delivered ||| b }
  if k.phase = .waiting && maskMet k.flags k.mask k.maskAll then { k with phase := .ready, readySince := now } else k

/-- Sets event flag `f` of task `t` (R324). -/
def setFlag (t f : Nat) (s : State) : State := modTask t (deliver f s.datum) s

/-- The core a task runs on. -/
def coreOfTask (s : State) (t : Nat) : Option Nat :=
  (s.cores.find? fun c => decide (c.2.run = some t)).map (·.1)

/-- Core `c`. -/
def coreOf (s : State) (c : Nat) : Core := Tab.getD s.cores c {}

/-- Changes core `c`. -/
def setCore (s : State) (c : Nat) (k : Core) : State := { s with cores := Tab.set s.cores c k }

end Sys2Proof.Machine
end

