-- ==== Sys2Proof/Machine/Content.lean ====
section
/-! DEFINITION. What namespaces hold (R179 to R184): blocks, mapping units and their map entries, buffer lines, poison;
owners of units (R180); capacity and spares (R207 to R213). -/

namespace Sys2Proof.Machine

/-! ### Blocks, units, quarters, sectors (R179) -/

/-- Logical blocks of a mapping unit (R179). -/
def unitBlocks (n : Namespace) : Nat := if n.lbaf = 0 then 32 else 4

/-- 512-byte sectors of a logical block. -/
def blockSectors (n : Namespace) : Nat := if n.lbaf = 0 then 1 else 8

/-- Map entry of unit `u`. -/
def entryOf (n : Namespace) (u : Nat) : MapEntry := Tab.getD n.map u {}

/-- Data of a block; a block that holds nothing reads as zeros (R184). -/
def blockData (n : Namespace) (lba : Nat) : List Byte := (Tab.get? n.blocks lba).getD (zeros (blockBytes n))

/-- Data of `cnt` blocks from `slba` on. -/
def blocksData (n : Namespace) (slba cnt : Nat) : List Byte := (List.range cnt).flatMap fun i => blockData n (slba + i)

/-- Writes one block; a block of zeros is not listed. -/
def putBlock (t : Tab (List Byte)) (lba : Nat) (bs : List Byte) : Tab (List Byte) :=
  if bs.all (· == 0) then Tab.erase t lba else Tab.set t lba bs

/-- Writes the blocks of `data` from `slba` on. -/
def putBlocks (size : Nat) : Nat → Nat → List Byte → Tab (List Byte) → Tab (List Byte)
  | 0, _, _, t => t
  | n + 1, slba, data, t => putBlocks size n (slba + 1) (data.drop size) (putBlock t slba (fit size (data.take size)))

/-- The mapping units that `cnt` blocks from `slba` touch. -/
def unitsTouched (n : Namespace) (slba cnt : Nat) : List Nat :=
  if cnt = 0 then []
  else
    let a := slba / unitBlocks n
    (List.range ((slba + cnt - 1) / unitBlocks n - a + 1)).map fun i => a + i

/-- The quarters of 4 KiB that `cnt` blocks from `slba` touch. -/
def quartersTouched (n : Namespace) (slba cnt : Nat) : List Nat :=
  if cnt = 0 then []
  else
    let k := blockSectors n
    let a := slba * k / 8
    (List.range (((slba + cnt) * k - 1) / 8 - a + 1)).map fun i => a + i

/-- Mask of the sectors of quarter `q` within sectors `lo` to `hi` - 1. -/
def quarterMask (q lo hi : Nat) : Nat :=
  ((List.range 8).map fun i => flagBit (decide (lo ≤ 8 * q + i ∧ 8 * q + i < hi)) i).sum

/-- Sectors of a quarter that the write buffer holds (R181). -/
def heldMask (s : State) (nsid q : Nat) : Nat :=
  (s.lines.filter fun l => decide (l.nsid = nsid ∧ l.quarter = q)).foldl (fun m l => m ||| l.mask) 0

/-- KIND of the entry that a unit's unbuffered sectors come from (R181). -/
def baseKind (e : MapEntry) : MapKind := if e.kind = .buffered then e.prevKind else e.kind

/-- A map page covers 3,264 units (R185). Key of a page. -/
def pageKey (nsid page : Nat) : Nat := nsid * 2 ^ 32 + page

/-- The map page of a unit. -/
def pageOf (u : Nat) : Nat := u / 3264

/-- A page that cannot be read and has not been reconstructed (R188). -/
def pageLost (s : State) (nsid u : Nat) : Bool := (Tab.getD s.media.pages (pageKey nsid (pageOf u)) {}).lost

/-- A sector cannot be read: it is poisoned, or not buffered and its unit or its map page is unreadable (R183, R184,
R188). -/
def sectorBad (s : State) (nsid : Nat) (n : Namespace) (sec : Nat) : Bool :=
  let u := sec / 32
  !bit (heldMask s nsid (sec / 8)) (sec % 8)
    && (n.poison.contains sec || decide (baseKind (entryOf n u) = .unreadable) || pageLost s nsid u)

/-- The XTS key of an encrypted namespace is not in its slot, so that the namespace cannot be read (R446). -/
def keyMissing (s : State) (n : Namespace) : Bool :=
  n.xts && !(match n.keySlot.bind (Tab.get? s.keys) with
    | some k => decide (k.typ = .xts) && !k.lost
    | none => false)

/-- A block holds a sector that cannot be read, or its namespace has lost its key (R446). -/
def blockBad (s : State) (nsid : Nat) (n : Namespace) (lba : Nat) : Bool :=
  keyMissing s n || (List.range (blockSectors n)).any fun i => sectorBad s nsid n (lba * blockSectors n + i)

/-- The first block of a range that cannot be read. -/
def firstBad (s : State) (nsid : Nat) (n : Namespace) (slba cnt : Nat) : Option Nat :=
  ((List.range cnt).map fun i => slba + i).find? (blockBad s nsid n)

/-- The part of unit `u` that lies in a range: first block and count. -/
def unitPart (n : Namespace) (u slba cnt : Nat) : Nat × Nat :=
  let a := max slba (u * unitBlocks n)
  (a, min (slba + cnt) ((u + 1) * unitBlocks n) - a)

/-- A unit of a range that cannot be read whole within it. -/
def unitBad (s : State) (nsid : Nat) (n : Namespace) (u slba cnt : Nat) : Bool :=
  let p := unitPart n u slba cnt
  (firstBad s nsid n p.1 p.2).isSome

/-! ### Owners (R180, R155) -/

/-- Home region of unit `u` of a namespace (R180). -/
def unitHome (nsid u : Nat) : Nat := (nsid + u / 256) % 8

/-- The region that owns the unit now; none while no region is lit (R180). -/
def ownerOf (s : State) (nsid u : Nat) : Option Nat :=
  if (litRegions s).isEmpty then none else some (serving s (unitHome nsid u))

/-! ### Channels and their engines (R234, R237) -/

/-- Home and alternate region of a flash channel (R234). -/
def homeRegion (ch : Nat) : Nat := ch / 4

/-- The alternate region of a channel (R234). -/
def altRegion (ch : Nat) : Nat := (ch / 4 + 1) % 8

/-- The unit of channel engine `e` of region `r` (R521). -/
def engineSite (r e : Nat) : Site := { kind := 3, index := 4 * r + e }

/-- Engine of region `r` for channel `ch` is in service. -/
def engineUp (s : State) (r ch : Nat) : Bool := isLit s r && !unitRetired s (engineSite r (ch % 4))

/-- Some engine serves the channel (R237). -/
def channelServed (s : State) (ch : Nat) : Bool :=
  if s.media.adopted.contains ch then engineUp s (altRegion ch) ch || engineUp s (homeRegion ch) ch
  else engineUp s (homeRegion ch) ch || engineUp s (altRegion ch) ch

/-- Lanes of the channel engine that serves channel `ch`, its filter, seam stitcher and XTS unit: the other engine of the
channel is the other instance (R234, R502). -/
def channelLanes (ch : Nat) (c : LaneCheck) (s : State) : State :=
  let home := 4 * homeRegion ch + ch % 4
  let alt := 4 * altRegion ch + ch % 4
  if s.media.adopted.contains ch then laneCheck { kind := 3, index := alt } home c s
  else laneCheck { kind := 3, index := home } alt c s

/-! ### Geometry and capacity (R194, R207 to R210) -/

/-- A die's record. -/
def dieOf (s : State) (d : Nat) : Die := Tab.getD s.media.dies d {}

/-- Dies in service. -/
def diesInService (s : State) : List (Nat × Die) := s.media.dies.filter fun d => decide (d.2.state = .inService)

/-- The geometry that every die shares: that of the lowest die in service, or retired (R194). -/
def geometry (s : State) : Die :=
  match s.media.dies.find? fun d => decide (d.2.state = .inService ∨ d.2.state = .retired) with
  | some d => d.2
  | none => {}

/-- Some namespace uses 30+2 parity, so that the device-wide ratio is 30/32 (R196). -/
def anyPar2 (s : State) : Bool := s.namespaces.any fun n => n.2.par2

/-- Parity members of a mode. -/
def parityCount (par2 : Bool) : Nat := if par2 then 2 else 1

/-- G: blocks per LUN less the maximum of bad blocks (R207). -/
def goodG (d : Die) : Nat := d.blocks - d.maxBad

/-- S_sys (R207). -/
def sSys (d : Die) : Nat := ceilDiv (goodG d * 3) 128

/-- Ddata in bytes for `n` dies of a geometry, 31+1 (R208). -/
def dData (d : Die) (n : Nat) : Nat := n * (goodG d - sSys d) * d.pagesPerBlock * 16384 * 31 / 32

/-- Stripe groups of the device: one for each die index used (R195). -/
def groupCount (s : State) : Nat := s.media.dpc

/-- Die-blocks that the narrow superblocks cost (R197): each holds k(32 - w)/32 more parity than a full one (DEDUCED,
assumption 14). -/
def narrowCharge (s : State) : Nat :=
  ceilDiv ((s.media.sbs.map fun b =>
    if b.2.state = .free then 0 else parityCount b.2.par2 * (32 - b.2.members.length)).sum) 32

/-- Link records stored, bytes (R157, R213). -/
def linkBytes (s : State) : Nat := 128 * (s.namespaces.map fun n => n.2.chain.links.length).sum

/-- Bytes of a die-block. -/
def dieBlockBytes (s : State) : Nat := max 1 ((geometry s).pagesPerBlock * 16384)

/-- Die-blocks that link records take beyond L (R213). -/
def linkOverflow (s : State) : Nat := ceilDiv (linkBytes s - s.media.linkStore) (dieBlockBytes s)

/-- Retained blocks (R178). -/
def retainedBlocks (s : State) : Nat := (s.media.blocks.filter fun b => !b.2.retainedFor.isEmpty).length

/-- spare_d (R210). -/
def spareOf (s : State) (d : Die) : Int := d.good - (sSys d : Int) - s.media.uPerDie

/-- SP_NOW (R210). -/
def spNow (s : State) : Int :=
  ((diesInService s).map fun d => (d.2.good : Int) - sSys d.2).sum - (s.media.nAtFormat * s.media.uPerDie : Nat)
    - narrowCharge s - linkOverflow s - retainedBlocks s

/-- W, the working reserve (R210). -/
def workReserve (s : State) : Nat := 64 * groupCount s + ceilDiv 4294967296 (dieBlockBytes s)

/-- Spare percent, limited to 0 to 100 (R210). -/
def sparePct (s : State) : Nat :=
  let d := s.media.spFormat - workReserve s
  let x := spNow s - workReserve s
  if d ≤ 0 ∨ x ≤ 0 then 0 else min 100 (ceilDiv (100 * x.toNat) d.toNat)

/-- Bytes that a namespace is charged (R196). -/
def nsCharge (n : Namespace) : Nat :=
  let b := n.ncap * blockBytes n
  if n.par2 then ceilDiv (b * 31) 30 else b

/-- Capacity charged to the namespaces of a slice. -/
def capUsed (s : State) (sl : Nat) : Nat :=
  ((s.namespaces.filter fun n => decide (n.2.slice = sl)).map fun n => nsCharge n.2).sum

/-- UNVMCAP (R208). -/
def unvmcap (s : State) : Nat := s.media.tnvmcap - (s.namespaces.map fun n => nsCharge n.2).sum

/-- Bytes of CAP_GIB of a slice. -/
def capAllot (x : Slice) : Nat := x.capGib * 2 ^ 30

/-- Capacity that slice `sl` may still use: UNVMCAP less the unused allotments of the other slices (R453), and within
its own allotment. -/
def capFree (s : State) (sl : Nat) : Nat :=
  let others := ((tenants s).map fun p => if p.1 = sl then 0 else capAllot p.2 - capUsed s p.1).sum
  let free := unvmcap s - others
  if sl = 0 then free else min free (capAllot (sliceOf s sl) - capUsed s sl)

/-- REDUNDANCY_LOST (R199). -/
def redundancyLost (s : State) : Bool := !s.media.rebuilding.isEmpty

/-- Some namespace holds a unit marked 0b11 (R214). -/
def anyUnreadable (s : State) : Bool :=
  s.namespaces.any fun n => n.2.map.any fun e => decide (baseKind e.2 = .unreadable)

/-- What a change of the spare count brings (R211 to R213): SPARE_LOW with its event, and read-only when a retirement
brings SP_NOW to W or below. -/
def judgeSpares (retirement : Bool) (s : State) : State :=
  let low := decide (sparePct s < 10)
  let s := { s with media := { s.media with linkOver := s.media.linkOver || decide (0 < linkOverflow s) } }
  let s := if low && !s.media.spareLow then smartEvent 0 2 { s with media := { s.media with spareLow := true } }
           else { s with media := { s.media with spareLow := low } }
  if retirement && !s.media.readOnly && decide (spNow s ≤ workReserve s) then
    smartEvent 3 0 { s with media := { s.media with readOnly := true } }
  else s

/-! ### Critical Warning bit 2 and units marked 0b11 (R198, R214) -/

/-- Critical Warning bit 2 (R214). -/
def mediaWarning (s : State) : Bool := redundancyLost s || anyUnreadable s

/-- Applies a change and raises the SMART/Health event when Critical Warning bit 2 becomes set. -/
def withMediaWarning (f : State → State) (s : State) : State :=
  let s' := f s
  if mediaWarning s' && !mediaWarning s then smartEvent 2 0 s' else s'

/-- Marks a unit 0b11 and counts it (R198, R214). A unit marked already stays as it is. -/
def markUnreadable (nsid u : Nat) (s : State) : State :=
  withMediaWarning (fun s =>
    match nsOf s nsid with
    | none => s
    | some n =>
      let e := entryOf n u
      if baseKind e = .unreadable then s
      else
        let e' := if e.kind = .buffered then { e with prevKind := MapKind.unreadable } else { e with kind := MapKind.unreadable }
        let m := s.media
        setNs nsid { n with map := Tab.set n.map u e' }
          { s with media := { m with unrecovered := m.unrecovered + 1, mediaErrors := m.mediaErrors + 1 } }) s

/-- Key of a block in the block table. -/
def blockKey (die blk : Nat) : Nat := die * 65536 + blk

/-- The block that an entry's page lies in. -/
def entryBlock (s : State) (e : MapEntry) : Nat :=
  let k := e.kind = .buffered
  blockKey (if k then e.prevDie else e.die) ((if k then e.prevPpn else e.ppn) / max 1 (geometry s).pagesPerBlock)

/-- A retained block that no superblock has any more is released: it is erased and free again (R178; DEDUCED, assumption
143). -/
def releaseBlock (k : Nat) (s : State) : State :=
  let b := Tab.getD s.media.blocks k {}
  let die := k / 65536
  let blk := k % 65536
  let x := dieOf s die
  if !b.retainedFor.isEmpty || b.retired || decide (x.state ≠ .inService) || x.freeBlocks.contains blk
      || (s.media.sbs.any fun e => e.2.members.contains (die, blk)) then s
  else
    { s with media := { s.media with
      blocks := Tab.set s.media.blocks k { ec := b.ec + 1 }
      dies := Tab.set s.media.dies die { x with freeBlocks := x.freeBlocks ++ [blk] } } }

/-- Retains the die block of an unreadable sealed unit, or ends what the unit holds of it (R178). -/
def setRetained (on : Bool) (nsid u : Nat) (s : State) : State :=
  match nsOf s nsid with
  | none => s
  | some n =>
    let e := entryOf n u
    let k := entryBlock s e
    let s := setNs nsid { n with map := Tab.set n.map u { e with retained := on } } s
    let b := Tab.getD s.media.blocks k {}
    let others := b.retainedFor.filter fun p => decide (p ≠ (nsid, u))
    let b := { b with retainedFor := if on then others ++ [(nsid, u)] else others }
    let s := { s with media := { s.media with blocks := Tab.set s.media.blocks k b } }
    judgeSpares false (if on then s else releaseBlock k s)

/-! ### Seals over ranges (R174) -/

/-- Two ranges of blocks overlap. -/
def overlaps (a n b m : Nat) : Bool := decide (a < b + m ∧ b < a + n)

/-- A seal of the namespace covers a block of the range. -/
def sealed (n : Namespace) (slba cnt : Nat) : Bool := n.seals.any fun e => overlaps e.slba e.nlb slba cnt

/-- A unit holds a sealed LBA. -/
def unitSealed (n : Namespace) (u : Nat) : Bool := sealed n (u * unitBlocks n) (unitBlocks n)

/-! ### Reads (R110, R167, R374) -/

/-- A namespace as an I/O command sees it: attached to the port's controller, not being deleted, and of the slice that
the command acts for (R106, R450, R588). -/
def nsForIo (s : State) (h : Sub) (nsid : Nat) : Option Namespace :=
  match nsOf s nsid with
  | some n =>
    if attached n h.port && n.deleting.isNone && (decide (h.sq = 0) || decide (n.slice = actSlice s h)) then some n else none
  | none => none

/-- Counts host data read, in 512-byte units (R214). -/
def countRead (sectors : Nat) (s : State) : State :=
  { s with smart := { s.smart with unitsRead := s.smart.unitsRead + sectors } }

/-- A Read completes (R214). -/
def countReadCmd (s : State) : State := { s with smart := { s.smart with readCmds := s.smart.readCmds + 1 } }

/-- A Write completes (R214). -/
def countWriteCmd (s : State) : State := { s with smart := { s.smart with writeCmds := s.smart.writeCmds + 1 } }

/-- A range cannot be served yet: no region is lit, or a unit on NAND lies on a channel without an engine, so that it
waits (R180, R237). -/
def rangeWaits (s : State) (n : Namespace) (slba cnt : Nat) : Bool :=
  (litRegions s).isEmpty || (unitsTouched n slba cnt).any fun u =>
    let e := entryOf n u
    let used := if e.kind = .buffered then e.prevKind = .onNand else e.kind = .onNand
    let die := if e.kind = .buffered then e.prevDie else e.die
    let sb := if e.kind = .buffered then e.prevSb else e.sb
    decide used && !channelServed s (die / 32) &&
      (match Tab.get? s.media.sbs sb with
       | some b => decide (parityCount b.par2 < (b.members.filter fun m => !channelServed s (m.1 / 32)).length)
       | none => true)

end Sys2Proof.Machine
end

