-- ==== Sys2Proof/Machine/Chain.lean ====
section
/-! DEFINITION. The custody chain (R151 to R158), monuments (R158 to R160), Range Digest (R165 to R167) and sealed
extents (R169 to R177). -/

namespace Sys2Proof.Machine

/-! ### Links (R151 to R157, R163) -/

/-- The 99-byte preimage of a link (R152). -/
def linkPreimage (prev : List Byte) (nsid : Nat) (l : Link) : List Byte :=
  prev ++ toLe 4 nsid ++ toLe 8 l.slba ++ toLe 4 l.nlb ++ l.ddig ++ toLe 2 l.sid ++ toLe 8 l.datum ++ toLe 5 l.opsec
    ++ toLe 4 l.pcc

/-- The head link; 32 zero bytes before the genesis link (R153). -/
def headOf (c : Chain) : List Byte := ((c.links.getLast?).map (·.link)).getD (zeros 32)

/-- LSEQ of the head. -/
def headLseq (c : Chain) : Nat := c.links.length - 1

/-- The link of a granule on the present head (R152). -/
def makeLink (s : State) (nsid : Nat) (c : Chain) (slba nlb sid op : Nat) (ddig : List Byte) : Link :=
  let l : Link := { lseq := c.links.length, slba := slba, nlb := nlb, sid := sid, op := op, datum := s.datum,
                    opsec := s.opsec, pcc := s.pcc, ddig := ddig, link := [] }
  { l with link := sha256 (linkPreimage (headOf c) nsid l) }

/-- A link has been added since the newest monument (R158). -/
def linksSince (c : Chain) : Bool := decide (c.linksAtMon < c.links.length)

/-- Triggers a monument: MSEQ is assigned, the 60 s count restarts, and but for kind 0 a MONUMENT record is entered
(R158, R159). -/
def trigger (nsid kind lseq : Nat) (head : List Byte) (xslba xnlb : Nat) (xroot : List Byte)
    (waiter : Option (Sub × Nat)) (s : State) : State :=
  match nsOf s nsid with
  | none => s
  | some n =>
    let c := n.chain
    let t : MonTrigger := { kind := kind, mseq := c.nextMseq, lseq := lseq, head := head, xslba := xslba, xnlb := xnlb,
                            xroot := xroot, waiter := waiter }
    let c := { c with pending := c.pending ++ [t], nextMseq := c.nextMseq + 1, lastMon := s.datum, linksAtMon := c.links.length,
                      kind1Due := false }
    let s := setNs nsid { n with chain := c } s
    if kind = 0 then s else journalPut (.monument nsid t) s

/-- Adds a link to the chain; it may trigger a monument of kind 0, or a kind 1 that is due (R158). -/
def appendLink (nsid : Nat) (l : Link) (s : State) : State :=
  match nsOf s nsid with
  | none => s
  | some n =>
    let s := setNs nsid { n with chain := { n.chain with links := n.chain.links ++ [l], forming := none } } s
    if l.lseq % 4096 = 0 then trigger nsid 0 l.lseq l.link 0 0 (zeros 32) none s
    else if n.chain.kind1Due then trigger nsid 1 l.lseq l.link 0 0 (zeros 32) none s
    else s

/-- MSEQ of the kind 0 monument that a link triggers (R158, R189). -/
def linkMseq (c : Chain) (l : Link) : Option Nat := if l.lseq % 4096 = 0 then some c.nextMseq else none

/-- Forms the genesis link, or an epoch link, which is built like it on the present head (R153). Its record is a GRANULE
record without deltas (DEDUCED, assumption 146). -/
def genesisLink (nsid : Nat) (epoch : Bool) (s : State) : State :=
  match nsOf s nsid with
  | none => s
  | some n =>
    let s := if epoch then setNs nsid { n with chain := { n.chain with epoch := n.chain.epoch + 1 } } s else s
    let l := makeLink s nsid n.chain 0 0 0 (if epoch then 5 else 0) (sha256 n.nguid)
    judgeSpares false (appendLink nsid l (journalPut (.granule [] (some l) (linkMseq n.chain l)) s))

/-! ### Monuments (R159, R160) -/

/-- Bytes 0 to 191 of a monument record (R160). -/
def monumentBody (s : State) (nsid : Nat) (n : Namespace) (t : MonTrigger) : List Byte :=
  let prev := match n.chain.monuments.getLast? with
    | some m => sha256 (m.take 192)
    | none => zeros 32
  layout 192 [(0, [1, 0]), (2, toLe 1 t.kind), (4, toLe 4 nsid), (8, toLe 8 t.mseq), (16, toLe 8 t.lseq), (24, t.head),
    (56, toLe 8 s.datum), (64, toLe 5 s.opsec), (72, toLe 4 s.pcc), (76, toLe 4 n.chain.epoch), (80, prev),
    (112, fit 16 Config.serial), (128, fit 16 n.nguid), (144, toLe 8 t.xslba), (152, toLe 8 t.xnlb), (160, fit 32 t.xroot)]

/-- The identity key; none while it is lost (R443, R446). -/
def identityKey (s : State) : Option (List Byte) :=
  match Tab.get? s.keys 0 with
  | some k => if k.typ = .identity ∧ k.lost = false then some k.key else none
  | none => none

/-- Signs and writes the oldest pending monument of a namespace; what waits on it completes (R159, R170, R176). A lost
identity key stops it (R446). -/
def writeMonument (nsid : Nat) (s : State) : State :=
  match nsOf s nsid, identityKey s with
  | some n, some key =>
    match n.chain.pending with
    | [] => s
    | t :: rest =>
      let b := monumentBody s nsid n t
      let rec' := b ++ fit 64 (Config.ecdsaSign key (sha256 b))
      let s := setNs nsid { n with chain := { n.chain with pending := rest, monuments := n.chain.monuments ++ [rec'] } } s
      match t.waiter with
      | some (h, dw0) => complete h sOk dw0 0 [] s
      | none => s
  | _, _ => s

/-- Writes every pending monument of a namespace, in order. -/
def writeAllMonuments (nsid : Nat) (s : State) : State :=
  match nsOf s nsid with
  | some n => n.chain.pending.foldl (fun s _ => writeMonument nsid s) s
  | none => s

/-- 60 s have passed since the newest monument: a kind 1 monument is triggered, or stays due while no link has been
added (R158). -/
def execMonumentTimerExpiry (nsid : Nat) (s : State) : Out :=
  .next (match nsOf s nsid with
    | none => s
    | some n =>
      if n.evid && !n.chain.links.isEmpty && decide (n.chain.lastMon + 6000000000 ≤ s.datum) && !n.chain.kind1Due then
        if linksSince n.chain then trigger nsid 1 (headLseq n.chain) (headOf n.chain) 0 0 (zeros 32) none s
        else setNs nsid { n with chain := { n.chain with kind1Due := true } } s
      else s)

/-- A triggered monument is signed and written (R159). When the public-key engine faults, a detected fault is recorded and
the record, which keeps its MSEQ and head, is signed again on the spare path: it stays pending until that signing. -/
def monumentWrite (nsid : Nat) (engineFault : Bool) (s : State) : State :=
  if engineFault && ((nsOf s nsid).any fun n => !n.chain.pending.isEmpty) then
    recordDetected { level := 3, cls := 0x08, site := chipUnit 3, aux0 := freeNat s, aux1 := 1 } (drew 1 s)
  else writeMonument nsid s

/-! ### Range Digest (R165 to R168) -/

/-- COUNT of a Range Digest (R166). -/
def digestCount (nlb grain : Nat) : Nat := if grain = 0 then 1 else ceilDiv (nlb + 1) grain

/-- The result of a Range Digest without its signature (R167). -/
def rangeDigestBody (s : State) (nsid : Nat) (n : Namespace) (slba nlb grain : Nat) (sign : Bool) : List Byte :=
  let count := digestCount nlb grain
  let g := if grain = 0 then nlb + 1 else grain
  let lseq := if n.evid then headLseq n.chain else 0
  layout 128 [(0, toLe 8 s.datum), (8, toLe 8 s.datum), (16, toLe 8 lseq), (24, toLe 8 lseq), (32, toLe 8 slba),
      (40, toLe 4 nlb), (44, toLe 4 count), (48, toLe 4 nsid), (52, toLe 2 grain), (54, toLe 1 (flagBit sign 0)),
      (56, toLe 5 s.opsec), (64, toLe 4 s.pcc), (68, fit 16 Config.serial)]
    ++ (List.range count).flatMap fun k => sha256 (blocksData n (slba + k * g) (min g (nlb + 1 - k * g)))

/-- Range Digest (R165 to R167). A lost identity key stops a signed one (R446): the spec names no status for it, which
is a free value (assumption 18). -/
def execRangeDigest (h : Sub) (nsid : Nat) (d : Cdw) (s : State) : Out :=
  .next (
    let slba := d.d11.toNat * 2 ^ 32 + d.d10.toNat
    let nlb := d.d12.toNat
    let grain := bits d.d13.toNat 15 0
    let sign := d.d13.getLsbD 16
    let size := 128 + 32 * digestCount nlb grain + (if sign then 64 else 0)
    match nsForIo s h nsid with
    | none => refuse h sNamespace s
    | some n =>
      if bits d.d13.toNat 31 17 ≠ 0 ∨ 8192 < grain ∨ 65536 < digestCount nlb grain
          ∨ d.d14.toNat < size ∨ d.d14.toNat % 4 ≠ 0 then
        refuse h sField s
      else if n.nsze < slba + nlb + 1 then refuse h sLba s
      else if rangeWaits s n slba (nlb + 1) then s
      else
        let s := countRead ((nlb + 1) * blockSectors n) s
        match firstBad s nsid n slba (nlb + 1) with
        | some b =>
          let junk := (List.range size).map fun i => freeByte s i
          completeAt h (sMedia 0x81) 0 0 junk nsid b (drew size s)
        | none =>
          let body := rangeDigestBody s nsid n slba nlb grain sign
          if !sign then complete h sOk 0 0 body s
          else match identityKey s with
            | some key => complete h sOk 0 0 (body ++ fit 64 (Config.ecdsaSign key (sha256 body))) s
            | none => complete h { sct := 0, sc := 1 + freeNat s % 255 } 0 0 [] (drew 1 s))

/-! ### Sealing (R169 to R173) -/

/-- Entries of the seal table and seals not yet at their seal points, device-wide (R171). -/
def sealLoad (s : State) : Nat :=
  (s.namespaces.map fun p => p.2.seals.length + (p.2.sealing.filter fun q => !q.fixed).length).sum

/-- A delete of the namespace has been received, or the destruction of its slice that deletes it (R169, R173, R467). -/
def goesAway (s : State) (n : Namespace) : Bool :=
  n.deleting.isSome || (decide ((sliceOf s n.slice).state = .destroying) && !(sliceOf s n.slice).keepNs)

/-- Extent Seal for a slice, in its turn (R169 to R171). -/
def sealNow (h : Sub) (sl nsid : Nat) (data : List Byte) (s : State) : State :=
  let b := fit 64 data
  let slba := field b 0 8
  let nlb := field b 8 8
  match nsOf s nsid with
  | none => refuse h sField s
  | some n =>
    if sl ≠ 0 ∧ n.slice ≠ sl then refuse h sNamespace s
    else if n.evid = false ∨ goesAway s n = true ∨ nlb = 0 ∨ 2 ^ 32 < nlb ∨ zeroAt b 32 32 = false then refuse h sField s
    else if n.nsze < slba + nlb then refuse h sLba s
    else if 65536 ≤ sealLoad s then complete h sField 0x0000FFFF 0 [] s
    else setNs nsid { n with sealing := n.sealing ++ [{ h := some h, slba := slba, nlb := nlb, label := slice b 16 16 }] } s

/-- Inserts a seal in ascending SLBA; an equal one goes after. -/
def insertSeal (e : SealEntry) : List SealEntry → List SealEntry
  | [] => [e]
  | x :: xs => if e.slba < x.slba then e :: x :: xs else x :: insertSeal e xs

/-- The seal point of the oldest seal that has none is fixed in the chain, with its SEAL record; from here the range
refuses changes (R170). -/
def fixSealPoint (nsid : Nat) (s : State) : State :=
  match nsOf s nsid with
  | none => s
  | some n =>
    match n.sealing.find? fun p => !p.fixed with
    | none => s
    | some p =>
      let e : SealEntry := { slba := p.slba, nlb := p.nlb, label := p.label, datum := s.datum, mseq := 0, manifest := [],
                             root := [], complete := false, headLseq := headLseq n.chain, head := headOf n.chain }
      let rest := (n.sealing.takeWhile fun q => q.fixed) ++ ({ p with fixed := true } ::
        (n.sealing.dropWhile fun q => q.fixed).drop 1)
      journalPut (.seals nsid p.slba p.nlb (.point p.label s.datum (headOf n.chain)))
        (setNs nsid { n with sealing := rest, seals := insertSeal e n.seals } s)

/-- Digest of the sealed blocks of unit `u` (R172); zeros for a unit that could not be read. -/
def unitDigest (s : State) (nsid : Nat) (n : Namespace) (u slba nlb : Nat) : List Byte :=
  let p := unitPart n u slba nlb
  if unitBad s nsid n u slba nlb then zeros 32 else sha256 (blocksData n p.1 p.2)

/-- Root of a manifest (R172). -/
def manifestRoot (m : List (Nat × List Byte)) : List Byte := sha256 (m.flatMap (·.2))

/-- Replaces the first entry that satisfies `p`. -/
def replaceFirst {α : Type} (p : α → Bool) (f : α → α) : List α → List α
  | [] => []
  | x :: xs => if p x then f x :: xs else x :: replaceFirst p f xs

/-- The manifest is built, a second SEAL record written and the kind 3 monument triggered; the command completes after
it is written, or at once with 81h when a unit could not be read (R170, R172). Where the manifest lies in the system
area the spec leaves open (free value). -/
def sealManifest (nsid : Nat) (s : State) : State :=
  match nsOf s nsid with
  | none => s
  | some n =>
    match n.seals.find? fun e => !e.complete with
    | none => s
    | some e =>
      let units := unitsTouched n e.slba e.nlb
      let bad := units.filter fun u => unitBad s nsid n u e.slba e.nlb
      let man := units.map fun u => (u, unitDigest s nsid n u e.slba e.nlb)
      let root := manifestRoot man
      let waits := n.sealing.find? fun p => p.fixed && decide (p.slba = e.slba ∧ p.nlb = e.nlb ∧ p.label = e.label)
      let e' := { e with manifest := man, root := root, complete := true, mseq := n.chain.nextMseq }
      let n' := { n with seals := replaceFirst (fun x => !x.complete) (fun _ => e') n.seals
                         sealing := match waits with
                           | some p => n.sealing.erase p
                           | none => n.sealing }
      let s := journalPut (.seals nsid e.slba e.nlb (.manifest (freeNat s) root)) (drew 1 (setNs nsid n' s))
      let s := bad.foldl (fun s u => setRetained true nsid u (markUnreadable nsid u s)) s
      let firstLba := (firstBad s nsid n e.slba e.nlb).getD 0
      let waiter := if bad.isEmpty then (waits.bind (·.h)).map fun h => (h, n.seals.length) else none
      let s := trigger nsid 3 e.headLseq e.head e.slba e.nlb root waiter s
      match waits.bind (·.h) with
      | some h => if bad.isEmpty then s else completeAt h (sMedia 0x81) 0 0 [] nsid firstLba s
      | none => s

/-! ### Unsealing (R172, R176) -/

/-- One part that an entry keeps: its range, and its manifest with the digests of partly unsealed units recomputed
(R172). `rechecks` names the units whose digest, as read, does not match the manifest, and whether it does after
rebuild; a unit that cannot be read does not. Answers the units that fail for good. -/
def keepPart (s : State) (nsid : Nat) (n : Namespace) (e : SealEntry) (rechecks : List (Nat × Bool)) (slba nlb : Nat) :
    SealEntry × List Nat :=
  let units := unitsTouched n slba nlb
  let olds := fun u => ((e.manifest.find? fun m => decide (m.1 = u)).map (·.2)).getD (zeros 32)
  let partly := fun u => decide (unitPart n u slba nlb ≠ unitPart n u e.slba e.nlb)
  let good := fun u => !rechecks.contains (u, false) && !unitBad s nsid n u e.slba e.nlb
    && decide (unitDigest s nsid n u e.slba e.nlb = olds u)
  let man := units.map fun u => (u, if partly u then (if good u then unitDigest s nsid n u slba nlb else zeros 32) else olds u)
  ({ e with slba := slba, nlb := nlb, manifest := man, root := manifestRoot man },
   units.filter fun u => partly u && !good u)

/-- The parts that entry `e` keeps when the range is unsealed (R176). -/
def keptParts (s : State) (nsid : Nat) (n : Namespace) (rechecks : List (Nat × Bool)) (a cnt : Nat) (e : SealEntry) :
    List (SealEntry × List Nat) :=
  if !overlaps e.slba e.nlb a cnt then [(e, [])]
  else
    (if e.slba < a then [keepPart s nsid n e rechecks e.slba (a - e.slba)] else [])
      ++ (if a + cnt < e.slba + e.nlb then [keepPart s nsid n e rechecks (a + cnt) (e.slba + e.nlb - (a + cnt))] else [])

/-! ### Mismatches of sealed units (R172, R178) -/

/-- The class 0x15 entry of a sealed unit that does not match its manifest (R522). -/
def sealEntry (nsid u : Nat) (n : Namespace) (after : Nat) : LogEntry :=
  let e := entryOf n u
  { level := 4, cls := 0x15, site := { kind := 8, index := if e.kind = .buffered then e.prevDie else e.die },
    slice := n.slice, addr := u * unitBlocks n, aux0 := nsid, aux1 := after }

/-- A sealed unit mismatches after rebuild: the source is kept, the unit marked, its entry and an Error Information entry
written (R178). -/
def sealMismatch (nsid u : Nat) (n : Namespace) (s : State) : State :=
  let lba := u * unitBlocks n
  let s := recordDetected (sealEntry nsid u n 0) s
  let s := setRetained true nsid u (markUnreadable nsid u s)
  let s := { s with media := { s.media with sealMismatch := s.media.sealMismatch + 1 } }
  onPorts (fun p => { p with
    errorCount := p.errorCount + 1
    errorLog := ({ count := p.errorCount + 1, sq := 0xFFFF, cid := 0xFFFF, sct := 2, sc := 0x81, lba := lba, nsid := nsid }
      :: p.errorLog).take 256 }) s

/-- A sealed unit mismatches as read and matches after rebuild: a masked fault (R178). -/
def sealRebuilt (nsid u : Nat) (n : Namespace) (s : State) : State := recordMasked (sealEntry nsid u n 1) s

/-- Releases the retained blocks of the units that hold no sealed block any more (R178). -/
def releaseRetained (nsid : Nat) (s : State) : State :=
  match nsOf s nsid with
  | none => s
  | some n => n.map.foldl (fun s e => if e.2.retained && !unitSealed n e.1 then setRetained false nsid e.1 s else s) s

/-- Extent Unseal (R176), in its turn: manager only (R458). `rechecks` is what reading the partly unsealed units finds
(R172). -/
def unsealNow (h : Sub) (nsid : Nat) (data : List Byte) (rechecks : List (Nat × Bool)) (s : State) : State :=
  let b := fit 64 data
  let slba := field b 0 8
  let nlb := field b 8 8
  match nsOf s nsid with
  | none => refuse h sField s
  | some n =>
    if n.evid = false ∨ n.deleting.isSome = true ∨ nlb = 0 ∨ 2 ^ 32 < nlb ∨ zeroAt b 16 48 = false then refuse h sField s
    else if n.nsze < slba + nlb then refuse h sLba s
    else if !windowOpen s then refuse h (sVendor 0x85) s
    else if !sealed n slba nlb then refuse h sField s
    else
      let parts := n.seals.flatMap (keptParts s nsid n rechecks slba nlb)
      if n.seals.length < parts.length ∧ 65536 < sealLoad s + (parts.length - n.seals.length) then
        complete h sField 0x0000FFFF 0 [] s
      else
        let bad := (parts.flatMap (·.2)).eraseDups
        let healed := rechecks.filter fun r =>
          r.2 && !bad.contains r.1 && parts.any fun p => p.1.manifest.any fun m => decide (m.1 = r.1)
        let s := usePrivileged 4 s
        let s := setNs nsid { n with seals := (parts.map (·.1)).foldl (fun l e => insertSeal e l) [] } s
        let s := healed.foldl (fun s r => sealRebuilt nsid r.1 n s) s
        let s := bad.foldl (fun s u => sealMismatch nsid u n s) s
        let s := journalPut (.seals nsid slba nlb .unseal) (releaseRetained nsid s)
        trigger nsid 4 (headLseq n.chain) (headOf n.chain) slba nlb (zeros 32) (some (h, 0)) s

/-- Removes every seal of a namespace under a presence window (R175): the removals are counted. -/
def removeSeals (nsid : Nat) (s : State) : State :=
  match nsOf s nsid with
  | none => s
  | some n =>
    let s := n.seals.foldl (fun s _ => bookCount 21 s) (setNs nsid { n with seals := [] } s)
    releaseRetained nsid s

end Sys2Proof.Machine
end

