-- ==== Sys2Proof/Machine/HoldUp.lean ====
section
/-! DEFINITION. The hold-up bank (R117 to R125): measurement, covered buffer size, limits on dirty content,
write-through and what it brings (R113, R122 to R124, R140). -/

namespace Sys2Proof.Machine

/-! ### Numbers (R117, R120, R575, R580) -/

/-- Bank voltage of a conversion: 12 bits over 1.5 V, divider 25.00 (R575, R580; DEDUCED, assumption 15). -/
def bankVolts (code : Nat) : Rat := code * 375 / 40960

/-- The strap image in force; a device without one has no HU_ parameters. -/
def strapOf (s : State) : Option StrapImage := s.startup.strap

/-- Test current in A. -/
def testAmps (t : StrapImage) : Rat := t.huItest / 100

/-- C in farad (R117). -/
def measC (t : StrapImage) (m : Measurement) : Rat :=
  testAmps t * (m.dt / 100000000) / (bankVolts m.v1 - bankVolts m.v2)

/-- ESR in ohm (R117). -/
def measEsr (t : StrapImage) (m : Measurement) : Rat := (bankVolts m.v0 - bankVolts m.v1) / testAmps t

/-- Nearest whole number of a value that is not negative (DESIGN CHOICE, assumption 16). -/
def nearest (x : Rat) : Nat := (x + 1 / 2).floor.toNat

/-- R_dump in bytes per second: SLC rates of the dies in service times the parity ratio (R120, R196). -/
def dumpRate (s : State) : Rat :=
  ((diesInService s).map fun d => d.2.slcRate).sum * 1000 * (if anyPar2 s then 30 else 31) / 32

/-- Pairs of DRAM channels whose mirror is intact (R120, R272). -/
def intactPairs (s : State) : Nat :=
  ((List.range 4).filter fun n =>
    !s.dram.brokenPairs.contains n && (Tab.getD s.dram.channels n {}).inService
      && (Tab.getD s.dram.channels (n + 4) {}).inService).length

/-- B that a measurement gives at a bank voltage (R120), bytes. -/
def coverOf (s : State) (t : StrapImage) (m : Measurement) (v : Rat) : Nat :=
  let vmin : Rat := t.huVmin / 100
  let eff : Rat := t.huEff / 100
  let iFloor := t.huPdump / (eff * vmin)
  let vFloor := vmin + iFloor * measEsr t m
  let e : Rat := if v ≤ vFloor then 0 else 4 / 10 * measC t m * (v * v - vFloor * vFloor) * eff
  let tDump := max 0 (min (e / t.huPdump) (1 / 4) - 1 / 25)
  let b := min (dumpRate s * tDump).floor.toNat (min 2147483648 (536870912 * intactPairs s))
  b / 4194304 * 4194304

/-- The measured B of a measurement: R120 with V_bank equal to its V0 (R121). -/
def measuredB (s : State) (m : Measurement) : Nat :=
  match strapOf s with
  | some t => coverOf s t m (bankVolts m.v0)
  | none => 0

/-- B from the last bank sample (R119); a bank not measured, or with HU_ fields out of range, covers nothing (R118,
R550). -/
def coverNow (s : State) : Nat :=
  match strapOf s, s.holdUp.meas with
  | some t, some m => if s.startup.huValid then coverOf s t m (bankVolts s.holdUp.vbank) else 0
  | _, _ => 0

/-- CAP in 100 µF units (R125, R146). -/
def capUnits (s : State) : Nat :=
  match strapOf s, s.holdUp.meas with
  | some t, some m => min 65535 (nearest (measC t m * 10000))
  | _, _ => 0

/-- ESR in 0.1 mΩ units (R125, R146). -/
def esrUnits (s : State) : Nat :=
  match strapOf s, s.holdUp.meas with
  | some t, some m => min 65535 (nearest (measEsr t m * 10000))
  | _, _ => 0

/-! ### Limits (R113, R117, R144) -/

/-- Dip holdback of one reservation, bytes, in whole KiB (R144). -/
def dipHoldback (bw burst : Nat) : Nat := ceilDiv (bw * 20 + burst) 1024 * 1024

/-- HB_DIP, bytes (R144). -/
def hbDip (s : State) : Nat := (s.resvs.map fun r => dipHoldback r.bw r.burst).sum

/-- The sum of BURST of the admitted reservations. -/
def burstSum (s : State) : Nat := (s.resvs.map (·.burst)).sum

/-- B that bounds dirty content: while a measurement lowers the limit, the value at 0.97 × V0 (R117). -/
def limitB (s : State) : Nat :=
  match s.holdUp.lowered, strapOf s, s.holdUp.meas with
  | true, some t, some m => min s.holdUp.b (coverOf s t m (bankVolts s.holdUp.v0 * 97 / 100))
  | true, _, _ => 0
  | false, _, _ => s.holdUp.b

/-- The dirty limit D (R113). -/
def dirtyLimit (s : State) : Nat := limitB s - hbDip s

/-- Dirty content: buffer lines of 4 KiB not yet released (R111, R112). -/
def dirtyBytes (s : State) : Nat := 4096 * s.lines.length

/-! ### Write-through (R122 to R124, R140) -/

/-- The causes of write-through that hold (R124), by number. -/
def wtCauses (s : State) : List Nat :=
  (if !s.startup.huValid then [1]
   else if s.holdUp.meas.isNone then [2]
   else if dirtyLimit s < 4456448 then [1] else [])
  ++ (if s.dump.brownOut then [3] else []) ++ (if intactPairs s = 0 then [4] else [])

/-- WT_CAUSE: the lowest (R124). -/
def wtCause (s : State) : Nat := (wtCauses s).headD 0

/-- Latency floor of a largest write, µs (R140). -/
def latencyFloor (wt : Bool) (maxw : Nat) : Nat := 250 + ceilDiv maxw 4000 + (if wt then 5000 else 0)

/-- Event 0x05 with its class 0x39 entry (R122, R522). -/
def holdUpDegraded (cond aux1 : Nat) (s : State) : State :=
  recordNote { level := 3, cls := 0x39, site := chipUnit 12, aux0 := cond, aux1 := aux1 } 5 s

/-- Reservations whose LBOUND is below the write-through floor are flagged AT_RISK, with event 0x04 (R140). -/
def flagAtRisk (s : State) : State :=
  let f := fun r : Reservation => decide (r.lbound < latencyFloor true r.maxw)
  let s' := { s with resvs := s.resvs.map fun r => { r with atRisk := r.atRisk || f r } }
  if s.resvs.any f then atRiskNotice 140 (chipUnit 16) 0 s' else s'

/-- Judges write-through again after a change of B, of D or of a cause (R122 to R124, R140). Critical Warning bit 4 is set
when write-through with cause 1 begins (R124). -/
def judgeWt (s : State) : State :=
  let causes := wtCauses s
  let wt := !causes.isEmpty
  let one := causes.contains 1
  let other := causes.any (· ≠ 2)
  let was := s.holdUp
  let s := { s with holdUp := { was with writeThrough := wt, wtOther := other, wtOne := one,
                                         warning := was.warning || (one && !was.wtOne) } }
  let s := if other && !was.wtOther then holdUpDegraded 2 (causes.headD 0) s else s
  let s := if s.holdUp.warning && !was.warning then smartEvent 4 0 s else s
  if wt && !was.writeThrough then flagAtRisk s
  else if !wt && was.writeThrough then { s with resvs := s.resvs.map fun r => { r with atRisk := false } }
  else s

/-- Recomputes B from the last sample (R119) and what follows from it. -/
def refreshB (s : State) : State := judgeWt { s with holdUp := { s.holdUp with b := coverNow s } }

/-- A degraded condition of R122 is present. -/
def holdUpBad (s : State) : Bool := s.holdUp.degradedC || s.holdUp.degradedB || s.holdUp.wtOther

/-! ### Charging (R485, R126, R580, R581) -/

/-- Charging is allowed: neither forbidden nor latched, no dump, no qualification, no discharge. -/
def mayCharge (s : State) : Bool :=
  !s.holdUp.forbidden && !s.holdUp.latched && !s.dump.active && s.dump.qualifying.isNone && !s.holdUp.testLoad
    && !s.dump.holdSel && !s.dump.poweredDown && !s.faults.supStopped

/-- Starts the charger where it is allowed. -/
def startCharger (s : State) : State := { s with holdUp := { s.holdUp with charging := mayCharge s } }

/-! ### Measurement (R117, R118, R121, R122) -/

/-- Dword 1 of Hold-up Test (R125). -/
def testDword (s : State) (outcome : Nat) (noval : Bool) (buf : Nat) : Nat :=
  outcome * 2 ^ 30 + flagBit s.holdUp.writeThrough 29 + flagBit noval 28 + min 4095 (buf / 1048576)

/-- Completes the Hold-up Tests that wait on a measurement. -/
def answerTests (outcome : Nat) (noval : Bool) (buf : Nat) (s : State) : State :=
  let hs := s.holdUp.testers
  let s := { s with holdUp := { s.holdUp with testers := [] } }
  hs.foldl (fun s h =>
    complete h sOk (capUnits s * 65536 + esrUnits s) (testDword s outcome noval buf) [] s) s

/-- A measurement runs: V0 has been sampled and the bank has not yet recharged. -/
def discharging (x : MeasureStep) : Bool :=
  match x with
  | .discharging _ => true
  | .discharging2 _ => true
  | _ => false

/-- Abandons a measurement that runs or, for a cause that ends one that waits too, one that waits; only a scheduled one is
retried when its condition clears (R118). -/
def abandonMeasurement (waiting : Bool) (outcome : Nat) (s : State) : State :=
  let u := s.holdUp
  let ran := discharging u.step
  let waits := match u.step with
    | .waiting _ => waiting
    | _ => false
  if !ran && !waits then s
  else
    let s := { s with holdUp := { u with step := if ran then .recharging else .idle, testLoad := false, retry := u.scheduled,
                                         scheduled := false } }
    answerTests outcome false (limitB s) s

/-- A due measurement finds the bank settled and charging allowed: the charger stops, V0 is sampled, the limit is
lowered and the discharge starts (R117). -/
def execHoldupMeasurementStart (v0 : Nat) (s : State) : Out :=
  .next (match s.holdUp.step with
    | .waiting _ =>
      if s.holdUp.settled && !s.holdUp.forbidden && !s.holdUp.latched && s.dump.qualifying.isNone && !s.dump.active
          && s.startup.huValid then
        judgeWt { s with holdUp := { s.holdUp with step := .discharging s.datum, v0 := v0, charging := false,
                                                   testLoad := true, lowered := true } }
      else s
    | _ => s)

/-- V1 is sampled 10,000 ticks after t0 (R117). -/
def execHoldupV1Sample (v1 : Nat) (s : State) : Out :=
  .next (match s.holdUp.step with
    | .discharging t0 =>
      if t0 + 10000 ≤ s.datum then { s with holdUp := { s.holdUp with step := .discharging2 t0, v1 := v1 } } else s
    | _ => s)

/-- C of a measurement lies below 80 % of HU_CRATED (R122). -/
def belowRated (t : StrapImage) (m : Measurement) : Bool := decide (measC t m * 10000 < t.huCrated * 8 / 10)

/-- What a completed measurement brings (R121, R122, R124, R529 to R531). -/
def takeMeasurement (m : Measurement) (s : State) : State :=
  let u := s.holdUp
  let s := { s with holdUp := { u with meas := some m } }
  let nb := measuredB s m
  let cap := capUnits s
  let lowC := ((strapOf s).map fun t => belowRated t m).getD false
  let lowB := match u.measB with
    | some p => decide (10 * nb < 9 * p)
    | none => false
  let s := { s with holdUp := { s.holdUp with
    prevB := u.measB
    measB := some nb
    measDt := s.datum
    degradedC := lowC
    degradedB := lowB
    retry := u.retry && !u.scheduled
    scheduled := false } }
  let s := { s with book := { s.book with holdup := ((cap, esrUnits s, s.opsec, s.pcc) :: s.book.holdup).take 64 } }
  let s := bookMin 44 cap 0 (bookCount 23 s)
  let s := match u.measB with
    | some p =>
      if 10 * nb < 8 * p then
        recordDetected { level := 3, cls := 0x19, site := chipUnit 12, aux0 := p / 1048576, aux1 := nb / 1048576 } s
      else s
    | none => s
  let s := if lowC then holdUpDegraded 0 cap s else s
  let s := if lowB then holdUpDegraded 1 cap s else s
  let s := refreshB s
  if nb - hbDip s < 4456448 then s else { s with holdUp := { s.holdUp with warning := false } }

/-- The bank has fallen to 0.97 × V0, or 20 ms have passed since t0 (R117). -/
def dischargeEnds (v0 v2 t0 now : Nat) : Bool := decide (100 * v2 ≤ 97 * v0 ∨ t0 + 2000000 ≤ now)

/-- V2 is sampled at 0.97 × V0 or 20 ms after t0; the discharge is removed and the charger restarted; C and ESR follow
when V0 > V1 > V2, else the measurement is abandoned, and a scheduled one waits for its next time (R117, R118). -/
def execHoldupV2Sample (v2 : Nat) (s : State) : Out :=
  .next (match s.holdUp.step with
    | .discharging2 t0 =>
      if !dischargeEnds s.holdUp.v0 v2 t0 s.datum then s
      else
        let u := s.holdUp
        let ok := decide (u.v1 < u.v0 ∧ v2 < u.v1)
        let s := startCharger { s with holdUp := { u with step := .recharging, testLoad := false } }
        if ok then
          let s := takeMeasurement { v0 := u.v0, v1 := u.v1, v2 := v2, dt := s.datum - (t0 + 10000) } s
          answerTests 0 false ((s.holdUp.measB).getD 0) s
        else
          let s := { s with holdUp := { s.holdUp with scheduled := false } }
          answerTests 0 true (limitB s) s
    | _ => s)

/-- The bank has not reached HU_VFULL within 60 s of the measurement falling due (R118). -/
def execHoldupSettleTimeout (s : State) : Out :=
  .next (match s.holdUp.step with
    | .waiting since => if since + 6000000000 ≤ s.datum then abandonMeasurement true 1 s else s
    | _ => s)

/-- A bank voltage at which the bank counts as settled at HU_VFULL: within the 1 % of R580 (DEDUCED, assumption 15). -/
def bankFull (s : State) (v : Nat) : Bool :=
  let full : Rat := ((strapOf s).map (·.huVfull)).getD 0
  decide (99 * full ≤ bankVolts v * 10000)

/-- The bank has recharged to HU_VFULL: the dirty limit returns (R117). -/
def execBankRecharged (v : Nat) (s : State) : Out :=
  .next (match s.holdUp.step with
    | .recharging =>
      if bankFull s v then
        refreshB { s with holdUp := { s.holdUp with step := .idle, lowered := false, vbank := v, settled := true } }
      else s
    | _ => s)

/-- The bank voltage is sampled and B recomputed (R119). An abandoned scheduled measurement falls due again once its
condition has cleared (R118). -/
def execVbankSample (v : Nat) (s : State) : Out :=
  .next (
    let settled := bankFull s v && s.holdUp.charging
    let u := s.holdUp
    let again := u.retry && settled && decide (u.step = .idle) && s.startup.huValid
    refreshB { s with holdUp := { u with vbank := v, settled := settled,
                                         step := if again then .waiting s.datum else u.step,
                                         scheduled := u.scheduled || again
                                         retry := u.retry && !again } })

/-- Hold-up Test (R125). DESIGN CHOICE (assumption 134): where the bank is not full and charging is forbidden too, the
outcome is 0b10, for the spec orders neither first. -/
def execHoldUpTest (h : Sub) (nsid : Nat) (s : State) : Out :=
  .next (
    if nsid ≠ 0 then refuse h sField s
    else
      let answer := fun outcome =>
        complete h sOk (capUnits s * 65536 + esrUnits s) (testDword s outcome false (limitB s)) [] s
      if !s.startup.huValid then answer 1
      else if discharging s.holdUp.step then
        { s with holdUp := { s.holdUp with testers := s.holdUp.testers ++ [h] } }
      else if s.holdUp.forbidden || s.holdUp.latched then answer 2
      else if s.holdUp.settled && decide (s.holdUp.step ≠ .recharging) && !s.dump.active && s.dump.qualifying.isNone then
        { s with holdUp := { s.holdUp with testers := s.holdUp.testers ++ [h]
                                           step := (match s.holdUp.step with
                                             | .waiting d => .waiting d
                                             | _ => .waiting s.datum) } }
      else answer 1)

end Sys2Proof.Machine
end

