-- ==== Sys2Proof/Machine/Stripes.lean ====
section
/-! DEFINITION. Superblocks and their stripes (R182, R195, R197, R207, R223): which dies give blocks, opening, the pages of a
stripe with their parity, the landing of units, and the map pages that deltas reach (R185 to R187). -/

namespace Sys2Proof.Machine

/-! ### Groups and free superblocks (R195, R197, R200) -/

/-- Dies of group `g`: die index g on each channel (R195). -/
def groupDies (g : Nat) : List Nat := (List.range 32).map fun ch => ch * 32 + g

/-- Group of a die. -/
def groupOf (die : Nat) : Nat := die % 32

/-- A die that may give a block to a superblock: in service, with an erased block, its channel served, and able to program
unless the dump ignores the window. The dump takes blocks of its pool first (R197, R207, R237, R241, R242). -/
def dieUsable (s : State) (dump : Bool) (d : Nat) : Bool :=
  let x := dieOf s d
  decide (x.state = .inService) && (!x.freeBlocks.isEmpty || (dump && !x.poolBlocks.isEmpty)) && channelServed s (d / 32)
    && (dump || !x.stopped)

/-- Members that a superblock of a group would have. -/
def formable (s : State) (dump : Bool) (g : Nat) : List Nat := (groupDies g).filter (dieUsable s dump)

/-- Free superblocks of a group: how many it can form with at least 24 members (R197, R200). -/
def freeSbCount (s : State) (g : Nat) : Nat :=
  let counts := ((groupDies g).map fun d =>
    let x := dieOf s d
    if x.state = .inService then x.freeBlocks.length else 0).mergeSort fun a b => decide (b ≤ a)
  (counts[23]?).getD 0

/-- Free superblocks of all groups. -/
def freeSbAll (s : State) : Nat := ((List.range (groupCount s)).map (freeSbCount s)).sum

/-- Destage leaves the last two superblocks of a group to reclaim and to the dump (R200). -/
def groupOpen (s : State) (dump : Bool) (g : Nat) : Bool := dump || decide (2 < freeSbCount s g)

/-- Groups in which destage may form a superblock (R197, R200). -/
def destageGroups (s : State) (dump : Bool) : List Nat :=
  (List.range (groupCount s)).filter fun g => decide (24 ≤ (formable s dump g).length) && groupOpen s dump g

/-- Dies of a group that are able to program: in service, inside the window, on a channel with an engine (R237, R241). -/
def programmers (s : State) (g : Nat) : List Nat :=
  (groupDies g).filter fun d => decide ((dieOf s d).state = .inService) && !(dieOf s d).stopped && channelServed s (d / 32)

/-- The programming window leaves no group with 24 dies that are able to program: destage stops, and with a reservation
admitted event 0x04 is raised (R241). -/
def judgeDestage (s : State) : State :=
  let stopped := (s.media.dies.any fun d => d.2.stopped && decide (d.2.state = .inService))
    && (List.range (groupCount s)).all fun g => decide ((programmers s g).length < 24)
  let was := s.media.destageStopped
  let s := { s with media := { s.media with destageStopped := stopped } }
  if stopped && !was then atRiskNotice 241 (chipUnit 16) 0 s else s

/-! ### Opening a superblock (R195, R197, R206) -/

/-- The erased block that a die gives: of the pool in a dump, else the first free one, or for wear levelling the free one
with the highest erase count (R206, R207). -/
def blockGiven (s : State) (dump worn : Bool) (d : Nat) : Nat :=
  let x := dieOf s d
  let ec := fun b => (Tab.getD s.media.blocks (blockKey d b) {}).ec
  if dump && !x.poolBlocks.isEmpty then x.poolBlocks.headD 0
  else
    let first := x.freeBlocks.headD 0
    if worn then x.freeBlocks.foldl (fun a b => if ec a < ec b then b else a) first else first

/-- A die gives a block; a block of the pool passes to the user area (R207). -/
def takeBlock (dump worn : Bool) (d : Nat) (s : State) : Nat × State :=
  let x := dieOf s d
  let b := blockGiven s dump worn d
  (b, { s with media := { s.media with dies := Tab.set s.media.dies d { x with
    freeBlocks := x.freeBlocks.filter (· ≠ b)
    poolBlocks := x.poolBlocks.filter (· ≠ b)
    sysBlocks := x.sysBlocks.filter (· ≠ b) } } })

/-- Takes a block from each die. -/
def takeBlocks (dump worn : Bool) : List Nat → State → List (Nat × Nat) × State
  | [], s => ([], s)
  | d :: ds, s =>
    let r := takeBlock dump worn d s
    let r2 := takeBlocks dump worn ds r.2
    ((d, r.1) :: r2.1, r2.2)

/-- Opens superblock `sb` in a group: one erased block of each die that can give one, and an SB_STATE record (R195, R197).
In dump mode it is programmed in SLC for the dump (R126). A narrow one may lower the spares (R197, R211). -/
def openSb (sb g : Nat) (par2 dump worn : Bool) (s : State) : State :=
  let r := takeBlocks dump worn (formable s dump g) s
  let b : Superblock := { group := g, state := .opened, par2 := par2, slc := dump, dump := dump, members := r.1 }
  let s := r.2
  let out := fun m : Nat × Nat => (dieOf s m.1).stopped
  let blocks := r.1.foldl (fun t m =>
    if out m then Tab.set t (blockKey m.1 m.2) { Tab.getD t (blockKey m.1 m.2) {} with outside := true } else t) s.media.blocks
  let m := s.media
  judgeSpares false (journalPut (.sbState sb .opened par2 r.1)
    { s with media := { m with sbs := Tab.set m.sbs sb b, blocks := blocks, nextSb := max m.nextSb (sb + 1) } })

/-- Changes a superblock. -/
def modSb (sb : Nat) (f : Superblock → Superblock) (s : State) : State :=
  { s with media := { s.media with sbs := Tab.modify s.media.sbs sb f } }

/-- A superblock takes another state, with its SB_STATE record (R189). -/
def setSbState (sb : Nat) (x : SbState) (s : State) : State :=
  match Tab.get? s.media.sbs sb with
  | none => s
  | some b => journalPut (.sbState sb x b.par2 b.members) (modSb sb (fun b => { b with state := x }) s)

/-! ### The dump pool (R207) -/

/-- Pages of a block: native, or in SLC mode (free value, assumption 144). -/
def pagesOf (s : State) (slc : Bool) : Nat :=
  let p := (geometry s).pagesPerBlock
  if slc then min p (Config.slcPages p) else p

/-- Blocks of the dump pool of each die: together they hold at least 2.25 GiB in SLC (R207). -/
def poolPerDie (s : State) : Nat :=
  min (sSys (geometry s)) (ceilDiv 2415919104 (max 1 ((diesInService s).length * (pagesOf s true * 16384))))

/-- Erased free blocks replace the pool blocks that hold dump data, with no erase (R207). -/
def refillPool (s : State) : State :=
  let n := poolPerDie s
  let fill := fun x : Die =>
    let k := n - x.poolBlocks.length
    if x.state = .inService then { x with poolBlocks := x.poolBlocks ++ x.freeBlocks.take k
                                          sysBlocks := x.sysBlocks ++ x.freeBlocks.take k
                                          freeBlocks := x.freeBlocks.drop k } else x
  { s with media := { s.media with dies := s.media.dies.map fun d => (d.1, fill d.2) } }

/-! ### Stripes (R195, R230, R232) -/

/-- Positions of a superblock that take a page: their die is in service and has not failed in this dump (R230, R232). -/
def alive (s : State) (b : Superblock) : List Nat :=
  (List.range b.members.length).filter fun i => !b.dead.contains i && (match b.members[i]? with
    | some m => decide ((dieOf s m.1).state = .inService)
    | none => false)

/-- The parity members of a stripe: s mod w, and (s + 1) mod w with 30+2 (R195). -/
def parityMembers (s : State) (b : Superblock) (stripe : Nat) : List Nat :=
  let l := alive s b
  let w := max 1 l.length
  (if b.par2 then [stripe % w, (stripe + 1) % w] else [stripe % w]).filterMap fun i => l[i]?

/-- Members of a stripe that hold units (R195). -/
def dataMembers (s : State) (b : Superblock) (stripe : Nat) : List Nat :=
  (alive s b).filter fun i => !(parityMembers s b stripe).contains i

/-- A superblock takes a further stripe: it is open and has one left, at least 24 members are alive (R197), and no
member is outside the programming window, which the dump ignores (R241, R242). -/
def takesStripe (s : State) (b : Superblock) : Bool :=
  decide (b.state = .opened ∧ b.nextStripe < pagesOf s b.slc ∧ 24 ≤ (alive s b).length)
    && (b.dump || !(b.members.any fun m => (dieOf s m.1).stopped))

/-- Dies programming at once per channel in a power state (R492). -/
def psDies (ps : Nat) : Nat := [32, 16, 8, 0, 0].getD ps 0

/-- Dies that are programming: members of the superblocks with a stripe under way. -/
def programmingDies (s : State) : List Nat :=
  (s.media.sbs.flatMap fun b => if b.2.programming.isEmpty then [] else b.2.members.map (·.1)).eraseDups

/-- A stripe of a superblock keeps to the power state's number of dies programming at once per channel, which dump mode
suspends (R492). -/
def programRoom (s : State) (b : Superblock) : Bool :=
  let l := (programmingDies s ++ b.members.map (·.1)).eraseDups
  s.dump.active || b.members.all fun m => decide ((l.filter fun d => decide (d / 32 = m.1 / 32)).length ≤ psDies s.supply.ps)

/-- The page of member `i` in a stripe: die and PPN (R184, R195). -/
def memberPage (s : State) (b : Superblock) (i stripe : Nat) : Nat × Nat :=
  match b.members[i]? with
  | some m => (m.1, m.2 * (geometry s).pagesPerBlock + stripe)
  | none => (0, 0)

/-- Identifier of a stripe in a buffer line. -/
def stripeId (sb stripe : Nat) : Nat := sb * 2 ^ 24 + stripe

/-! ### What pages hold (R182, R185, R195, R223) -/

/-- Poisoned sectors of a unit, by number within it (R183). -/
def unitPoison (n : Namespace) (u : Nat) : List Nat := (List.range 32).filter fun i => n.poison.contains (32 * u + i)

/-- The metadata of codeword `j` of a unit (R182). -/
def codewordMeta (nsid : Nat) (n : Namespace) (u seq : Nat) (poison : List Nat) (j : Nat) : List Byte :=
  let mask := ((List.range 8).map fun i => flagBit (poison.contains (8 * j + i)) i).sum
  toLe 4 nsid ++ toLe 8 (u * unitBlocks n + j * (unitBlocks n / 4)) ++ toLe 8 seq ++ toLe 1 mask ++ zeros 19

/-- A unit's data as the channel engine programs it: of an XTS namespace each block is encrypted under the namespace's
key, with its LBA as tweak (R149). -/
def onMedia (s : State) (n : Namespace) (u : Nat) (data : List Byte) : List Byte :=
  match n.keySlot with
  | none => data
  | some i =>
    let key := (Tab.getD s.keys i {}).key
    let k := blockBytes n
    (List.range (unitBlocks n)).flatMap fun j => fit k (Config.xtsEncrypt key (u * unitBlocks n + j) (fit k (data.drop (j * k))))

/-- The four codewords of a unit's page but for their LDPC parity: data, then metadata (R223). -/
def unitImage (nsid : Nat) (n : Namespace) (u seq : Nat) (poison : List Nat) (data : List Byte) : List Byte :=
  (List.range 4).flatMap fun j => fit 4096 (data.drop (4096 * j)) ++ codewordMeta nsid n u seq poison j

/-- A map entry as its 40 bits (R184). -/
def entryWord (nsid : Nat) (n : Namespace) (u : Nat) : Nat :=
  let e := entryOf n u
  let sealedBit := flagBit (unitSealed n u) 37
  sealedBit + match e.kind with
    | .deallocated => 0
    | .onNand => 2 ^ 38 + flagBit e.slc 36 + e.die % 1024 * 2 ^ 24 + e.ppn % 2 ^ 24
    | .buffered => 2 * 2 ^ 38 + Config.descriptorIndex nsid u % 2 ^ 34
    | .unreadable => 3 * 2 ^ 38

/-- A map page (R185): its header, whose fields have no stated places (DESIGN CHOICE, assumption 145: NSID, first unit,
sequence and CRC-32C one after the other), and 3,264 entries of 5 bytes. -/
def mapPageImage (nsid : Nat) (n : Namespace) (page seq : Nat) : List Byte :=
  let entries := (List.range 3264).flatMap fun i => toLe 5 (entryWord nsid n (3264 * page + i))
  let head := toLe 4 nsid ++ toLe 8 (3264 * page) ++ toLe 8 seq
  fit 64 (head ++ toLe 4 (crc32c (head ++ entries)).toNat) ++ entries

/-- What a programmed page holds, but for code bits. -/
def pageImage (s : State) (p : Placed) : List Byte :=
  match p.what with
  | .unit nsid u => match nsOf s nsid with
    | some n => unitImage nsid n u p.seq p.poison (onMedia s n u p.data)
    | none => p.data
  | .mapPage _ _ => p.data

/-- Bytewise XOR; the longer tail stays. -/
def xorBytes : List Byte → List Byte → List Byte
  | [], b => b
  | a, [] => a
  | x :: xs, y :: ys => (x ^^^ y) :: xorBytes xs ys

/-- P and Q of a stripe from its pages (R195). -/
def stripeParity (par2 : Bool) (pages : List (Nat × List Byte)) : List Byte × List Byte :=
  (pages.foldl (fun a p => xorBytes a p.2) [],
   if par2 then pages.foldl (fun a p => xorBytes a (p.2.map (Config.rsTerm p.1))) [] else [])

/-- What destage programs of a unit: its data now, with the sequence and the poison of its metadata (R182). -/
def unitPage (nsid : Nat) (n : Namespace) (u : Nat) : Placed :=
  { stripe := 0, member := 0, what := .unit nsid u, seq := (entryOf n u).seq, poison := unitPoison n u
    data := blocksData n (u * unitBlocks n) (unitBlocks n) }

/-- Programs the next stripe of a superblock with pages and their parity (R195, R223); a superblock whose pages are used
up is closed, with its SB_STATE record. -/
def programStripe (sb : Nat) (b : Superblock) (pages : List Placed) (s : State) : State :=
  let stripe := b.nextStripe
  let placed := ((dataMembers s b stripe).zip pages).map fun e => { e.2 with stripe := stripe, member := e.1 }
  let pq := stripeParity b.par2 (placed.map fun p => (p.member, pageImage s p))
  let m := s.media
  let s := { s with media := { m with
    sbs := Tab.set m.sbs sb { b with nextStripe := stripe + 1, placed := b.placed ++ placed
                                     parity := b.parity ++ [(stripe, pq)], programming := b.programming ++ [stripe]
                                     filling := none }
    nandUnits := m.nandUnits + (placed.filter fun p => match p.what with
      | .unit _ _ => true
      | .mapPage _ _ => false).length } }
  if pagesOf s b.slc ≤ stripe + 1 then setSbState sb .closed s else s

/-! ### Deltas and map pages (R185 to R187, R191) -/

/-- Pages that the map cache holds: one eighth of the fitted DRAM (R186). -/
def mapCachePages (s : State) : Nat := s.dram.gib * 1073741824 / 8 / 16384

/-- A delta reaches the map page of its unit: it is applied to a cached page, and pends for another (R187). -/
def touchPage (q : Nat) (d : Delta) (s : State) : State :=
  let k := pageKey d.nsid (pageOf d.unit)
  let p := Tab.getD s.media.pages k {}
  let p := if p.cached then { p with dirty := true, used := s.datum, seq := max p.seq q }
           else { p with pending := p.pending ++ [(q, d)] }
  { s with media := { s.media with pages := Tab.set s.media.pages k p } }

/-- A delta takes effect: an unconditional one replaces the entry; a conditional one only when the present entry is the
expected one (R191). -/
def applyDelta (q : Nat) (s : State) (d : Delta) : State :=
  match nsOf s d.nsid with
  | none => s
  | some n =>
    let ok := match d.expect with
      | none => true
      | some e => decide (entryOf n d.unit = e)
    if ok then touchPage q d (setNs d.nsid { n with map := Tab.set n.map d.unit d.entry } s) else s

/-- Evicts the least recently used clean page when the cache is full (R186). -/
def evictPage (s : State) : State :=
  let cached := s.media.pages.filter fun e => e.2.cached
  if cached.length < mapCachePages s then s
  else match cached.filter (fun e => !e.2.dirty) with
    | [] => s
    | e :: es =>
      let v := es.foldl (fun b x => if x.2.used < b.2.used then x else b) e
      { s with media := { s.media with pages := Tab.set s.media.pages v.1 { v.2 with cached := false } } }

/-- The cache has a place for one more page. -/
def cacheRoom (s : State) : Bool := decide ((s.media.pages.filter fun e => e.2.cached).length < mapCachePages s)

/-- A page arrives in the cache, into the place of an evicted one where the cache is full, and its pending deltas are
applied; while every cached page is dirty it waits (R186, R187). -/
def cachePage (nsid page : Nat) (s : State) : State :=
  let k := pageKey nsid page
  let p := Tab.getD s.media.pages k {}
  if p.cached then { s with media := { s.media with pages := Tab.set s.media.pages k { p with used := s.datum } } }
  else
    let s := evictPage s
    if !cacheRoom s then s
    else
      let p := { p with
        cached := true
        used := s.datum
        dirty := !p.pending.isEmpty
        seq := p.pending.foldl (fun q d => max q d.1) p.mediaSeq
        pending := [] }
      { s with media := { s.media with pages := Tab.set s.media.pages k p } }

/-- A lookup uses the pages of the units of a range: a miss loads them (R186, R187). -/
def lookupPages (nsid : Nat) (n : Namespace) (slba cnt : Nat) (s : State) : State :=
  if cnt = 0 then s
  else
    let a := pageOf (slba / unitBlocks n)
    (List.range (pageOf ((slba + cnt - 1) / unitBlocks n) - a + 1)).foldl (fun s i =>
      if (Tab.getD s.media.pages (pageKey nsid (a + i)) {}).lost then s else cachePage nsid (a + i) s) s

/-! ### Landing (R112, R181) -/

/-- The entry of a unit that lies at a page (R184). -/
def landed (b : Superblock) (e : MapEntry) (pg : Nat × Nat) (sb : Nat) : MapEntry :=
  { kind := .onNand, slc := b.slc, die := pg.1, ppn := pg.2, sb := sb, seq := e.seq, retained := e.retained }

/-- The entry of a unit whose place on NAND has become a page: that of its previous entry while it is buffered (R181,
R184). -/
def movedTo (b : Superblock) (e : MapEntry) (pg : Nat × Nat) (sb : Nat) : MapEntry :=
  if e.kind = .buffered then { e with prevKind := .onNand, prevSlc := b.slc, prevDie := pg.1, prevPpn := pg.2, prevSb := sb }
  else landed b e pg sb

/-- A MOVE record (R189, R203): its conditional delta takes effect where the entry is still the one it expects (R191,
R204), and the source keeps the record's number until it is durable. -/
def moveRecord (d : Delta) (src : Nat) (s : State) : State :=
  let s := journalPut (.move [d]) s
  let q := s.media.seq
  let hit := (nsOf s d.nsid).any fun n => decide (some (entryOf n d.unit) = d.expect)
  let s := modSb src (fun b => { b with moves := b.moves ++ [q] }) (applyDelta q s d)
  let cause := Tab.get? s.media.sources src
  let m := s.media
  { s with media := { m with
    gcUnits := if hit && decide (cause = some .reclaim) then m.gcUnits + 1 else m.gcUnits
    wlUnits := if hit && decide (cause = some .wear) then m.wlUnits + 1 else m.wlUnits
    relocate := m.relocate.filter (· ≠ (d.nsid, d.unit)) } }

/-- After a stripe is complete: a unit none of whose lines is newer lies at its page; one with newer lines has the page
as its previous entry (R112, R181); a copy has its MOVE record (R203). A map page that is still as programmed has its
place in the directory (R185). -/
def landPage (sb : Nat) (b : Superblock) (s : State) (p : Placed) : State :=
  let pg := memberPage s b p.member p.stripe
  match p.what, p.source with
  | .mapPage nsid page, _ =>
    { s with media := { s.media with pages := Tab.modify s.media.pages (pageKey nsid page) fun x =>
        { x with place := some pg, mediaSeq := p.seq, dirty := x.dirty && decide (p.seq < x.seq), lost := false } } }
  | .unit nsid u, some (e, src) =>
    moveRecord { nsid := nsid, unit := u, expect := some e, entry := movedTo b e pg sb } src s
  | .unit nsid u, none =>
    match nsOf s nsid with
    | none => s
    | some n =>
      let e := entryOf n u
      let newer := s.lines.any fun l => decide (l.nsid = nsid ∧ l.quarter / 4 = u)
      if e.kind ≠ .buffered then s
      else if newer then setNs nsid { n with map := Tab.set n.map u (movedTo b e pg sb) } s
      else applyDelta e.seq s { nsid := nsid, unit := u, entry := landed b e pg sb }

/-- The oldest stripe issued to a superblock is complete, with every page that shares its wordlines (which pages do the
spec leaves open: the event stands for all, assumption 20): its buffer lines are released (R112). -/
def stripeDone (sb : Nat) (s : State) : State :=
  match Tab.get? s.media.sbs sb with
  | none => s
  | some b =>
    match b.programming with
    | [] => s
    | stripe :: rest =>
      let s := modSb sb (fun b => { b with programming := rest })
        { s with lines := s.lines.filter fun l => decide (l.programmed ≠ some (stripeId sb stripe)) }
      (b.placed.filter fun p => decide (p.stripe = stripe)).foldl (landPage sb b) s

/-! ### Destage of units (R112, R181, R183, R195) -/

/-- Marks poisoned the sectors that destage could not read from the previous location (R183). -/
def poisonUnit (lost : List (Nat × Nat × Nat)) (s : State) (p : Nat × Nat) : State :=
  match nsOf s p.1 with
  | none => s
  | some n =>
    let held := fun sec : Nat => bit (heldMask s p.1 (sec / 8)) (sec % 8)
    let secs := (List.range 32).map (fun i => 32 * p.2 + i) |>.filter fun sec =>
      !held sec && !n.poison.contains sec
        && (decide (baseKind (entryOf n p.2) = .unreadable) || lost.contains (p.1, p.2, sec % 32))
    setNs p.1 { n with poison := n.poison ++ secs }
      { s with media := { s.media with mediaErrors := s.media.mediaErrors + secs.length } }

/-- Programs the next stripe of a superblock with buffered units (R112, R195). -/
def destageStripe (sb : Nat) (b : Superblock) (units : List (Nat × Nat)) (lost : List (Nat × Nat × Nat)) (s : State) : State :=
  let s := units.foldl (poisonUnit lost) s
  let lines := s.lines.map fun l =>
    if units.contains (l.nsid, l.quarter / 4) && l.programmed.isNone then { l with programmed := some (stripeId sb b.nextStripe) }
    else l
  let pages := units.filterMap fun p => (nsOf s p.1).map fun n => unitPage p.1 n p.2
  programStripe sb b pages { s with lines := lines }

/-- The superblock that takes further pages of a parity mode, formed where there is none; which group it lies in the spec
leaves open (free value, assumption 19). -/
def openTarget (par2 dump : Bool) (s : State) : Option (Nat × State) :=
  let fits := fun e : Nat × Superblock => decide (e.2.par2 = par2 ∧ e.2.dump = dump ∧ some e.1 ≠ s.media.wlTarget)
    && takesStripe s e.2 && groupOpen s dump e.2.group
  match s.media.sbs.find? fits with
  | some e => some (e.1, s)
  | none =>
    let gs := destageGroups s dump
    if gs.isEmpty then none
    else
      let sb := s.media.nextSb
      let s := openSb sb (gs.getD (freeNat s % gs.length) 0) par2 dump false (drew 1 s)
      some (sb, s)

/-- A buffered unit for which no superblock can be formed: its data is taken as programmed at a place that the spec leaves
open (free values, assumption 19; outside the guarantee of R120). -/
def settleAnywhere (dump : Bool) (s : State) (p : Nat × Nat) : State :=
  match nsOf s p.1 with
  | none => s
  | some n =>
    let e := entryOf n p.2
    if e.kind ≠ .buffered then s
    else
      let s := poisonUnit [] s p
      let m := s.media
      let e' := { e with kind := .onNand, slc := dump, die := freeNat s % 1024, ppn := freeNat (drew 1 s) % 2 ^ 24,
                         sb := freeNat (drew 2 s), prevKind := MapKind.deallocated }
      drew 3 (modNs p.1 (fun n => { n with map := Tab.set n.map p.2 e' })
        { s with lines := s.lines.filter fun l => !decide (l.nsid = p.1 ∧ l.quarter / 4 = p.2)
                 media := { m with nandUnits := m.nandUnits + 1 } })

/-- Units are programmed with their parity, stripe after stripe, and the stripes complete: what write-through does
before a commit point and the dump with what is left in the buffer (R107, R126). -/
def settle (dump : Bool) : Nat → List (Nat × Nat) → State → State
  | 0, _, s => s
  | _, [], s => s
  | fuel + 1, p :: ps, s =>
    match nsOf s p.1 with
    | none => settle dump fuel ps s
    | some n =>
      if (entryOf n p.2).kind ≠ .buffered then settle dump fuel ps s
      else
        let par2 := if dump then anyPar2 s else n.par2
        match openTarget par2 dump s with
        | none => settle dump fuel ps (settleAnywhere dump s p)
        | some (sb, s) =>
          match Tab.get? s.media.sbs sb with
          | none => s
          | some b =>
            let fits := fun q : Nat × Nat => (nsOf s q.1).any fun x =>
              decide ((entryOf x q.2).kind = .buffered) && (dump || decide (x.par2 = par2))
            let now := ((p :: ps).filter fits).eraseDups.take (max 1 (dataMembers s b b.nextStripe).length)
            let s := destageStripe sb b now [] s
            let s := (List.range (b.programming.length + 1)).foldl (fun s _ => stripeDone sb s) s
            settle dump fuel ((p :: ps).filter fun q => !now.contains q) s

/-- Every unit that has lines in the buffer. -/
def bufferedUnits (s : State) : List (Nat × Nat) := (s.lines.map fun l => (l.nsid, l.quarter / 4)).eraseDups

/-- Settles every unit that has lines in the buffer. -/
def settleAll (dump : Bool) (s : State) : State := settle dump (s.lines.length + 1) (bufferedUnits s) s

/-! ### Durable records (R190) -/

/-- Two dies of different channels and, where there is more than one, of different stripe groups, for the copies of a
record; which ones the spec leaves open (free values, assumption 19). -/
def recordDies (s : State) : Option (Nat × Nat) :=
  let ds := (diesInService s).map (·.1)
  match ds[freeNat s % max 1 ds.length]? with
  | none => none
  | some a =>
    let others := ds.filter fun d => decide (d / 32 ≠ a / 32 ∧ (groupCount s ≤ 1 ∨ d % 32 ≠ a % 32))
    (others[freeNat (drew 1 s) % max 1 others.length]?).map fun b => (a, b)

/-- The oldest record of the DRAM journal is programmed twice, and durable (R190). -/
def recordDurable (s : State) : State :=
  match s.media.journal with
  | [] => s
  | r :: rest =>
    drew 2 { s with media := { s.media with journal := rest, log := s.media.log ++ [{ r with dies := recordDies s }] } }

/-- Every record of the DRAM journal becomes durable, in SEQ order. -/
def drainJournal (s : State) : State := s.media.journal.foldl (fun s _ => recordDurable s) s

end Sys2Proof.Machine
end

