-- ==== Sys2Proof/Machine/WritePath.lean ====
section
/-! DEFINITION. The write path (R106 to R116): checks, granules, commit points, completion; reads; destage; the start
of reserved writes (R141 to R143). -/

namespace Sys2Proof.Machine

/-! ### Reservations of writes (R141 to R143) -/

/-- The reservation of a stream of a namespace. -/
def resvOf (s : State) (nsid sid : Nat) : Option Reservation := s.resvs.find? fun r => decide (r.nsid = nsid ∧ r.sid = sid)

/-- Changes the reservation of a stream. -/
def modResv (nsid sid : Nat) (f : Reservation → Reservation) (s : State) : State :=
  { s with resvs := s.resvs.map fun r => if r.nsid = nsid ∧ r.sid = sid then f r else r }

/-- Depth of a token bucket in 1/100000 byte (R142). -/
def bucketFull (burst : Nat) : Nat := 100000 * burst

/-- A token bucket now, in 1/100000 byte: it refills at BW kB/s, which is one such part per tick and kB/s, up to BURST
(R142). -/
def bucketNow (now : Nat) (r : Reservation) : Nat := min (bucketFull r.burst) (r.bucket + r.bw * (now - r.bucketAt))

/-- A write conforms when the bucket holds at least its bytes at dispatch (R142). -/
def conforms (now bytes : Nat) (r : Reservation) : Bool := decide (bucketFull bytes ≤ bucketNow now r)

/-- A conforming write's bytes are removed from the bucket; another one is counted (R142). -/
def bucketTake (now bytes : Nat) (r : Reservation) : Reservation :=
  if conforms now bytes r then { r with bucket := bucketNow now r - bucketFull bytes, bucketAt := now }
  else { r with excess := satAdd 32 r.excess 1 }

/-! ### Granules (R114) -/

/-- Blocks of a granule of 4 MiB (R114). -/
def granuleBlocks (n : Namespace) : Nat := 4194304 / blockBytes n

/-- Cuts a range into granules (R114). -/
def cutGranules (per size : Nat) (dealloc : Bool) : Nat → Nat → Nat → List Byte → List Granule
  | 0, _, _, _ => []
  | fuel + 1, slba, nlb, data =>
    if nlb = 0 then []
    else
      let k := min per nlb
      { slba := slba, nlb := k, data := data.take (k * size), dealloc := dealloc }
        :: cutGranules per size dealloc fuel (slba + k) (nlb - k) (data.drop (k * size))

/-- Granules of a range of a namespace. -/
def granulesOf (n : Namespace) (dealloc : Bool) (slba nlb : Nat) (data : List Byte) : List Granule :=
  cutGranules (granuleBlocks n) (blockBytes n) dealloc (nlb / granuleBlocks n + 1) slba nlb data

/-! ### Dispatch of writes (R106, R126, R127) -/

/-- First and last test of stage 2 on the ranges of an operation (R106, R174, R212). -/
def writeRefusal (s : State) (n : Namespace) (op : WriteOp) : Option Status :=
  if op.granules.any fun g => decide (n.nsze < g.slba + g.nlb) then some sLba
  else if op.granules.any fun g => sealed n g.slba g.nlb then some (sVendor 0x80)
  else if s.media.readOnly then some { sct := 0, sc := 0x20 }
  else if op.reserved then
    match resvOf s op.nsid op.sid with
    | some r => if r.maxw < op.bytes then some (sVendor 0x81) else none
    | none => none
  else none

/-- The datum from which the latency of a write counts (R143). -/
def startOf (s : State) (h : Sub) : Nat :=
  match s.held.find? fun c => decide (c.h = h) with
  | some c => if c.urgent then c.bell else s.datum
  | none => s.datum

/-- Removes the operations of a list element's command. -/
def dropWrite (w : WriteOp) (s : State) : State := { s with writes := s.writes.filter fun x => decide (x ≠ w) }

/-- An effect of the release of a task fails: later effects of that release are discarded, and the invocation keeps the
status (R369). -/
def failRelease (t : Nat) (st : Status) (nsid lba : Nat) (s : State) : State :=
  let s := { s with writes := s.writes.filter fun x => decide (x.task ≠ some t) }
  match taskOf s t with
  | none => s
  | some k =>
    let s := setTask s t { k with effects := [] }
    match k.inv with
    | some i => { s with invs := Tab.modify s.invs i fun v =>
        if v.failStatus.isSome then v else { v with failStatus := some (st.sct, st.sc), failAt := (nsid, lba) } }
    | none => s

/-- An operation fails: its command completes with the status; the output of an Invoke fails its release (R116, R369). -/
def failOp (w : WriteOp) (st : Status) (lba : Nat) (s : State) : State :=
  match w.task with
  | none => completeAt w.h st 0 0 [] w.nsid lba s
  | some t => failRelease t st w.nsid lba s

/-- The parts of a range by the region that owns their mapping units, which each part is dispatched to (R81, R180). -/
def dispatchParts (s : State) (nsid : Nat) (n : Namespace) (slba nlb : Nat) : List (Nat × Nat × Nat) :=
  (unitsTouched n slba nlb).filterMap fun u =>
    (ownerOf s nsid u).map fun r => (r, (unitPart n u slba nlb).1, (unitPart n u slba nlb).2)

/-- A command is dispatched to regions (R81). -/
def dispatchTo (h : Sub) (parts : List (Nat × Nat × Nat)) (s : State) : State :=
  { s with held := s.held.map fun c => if c.h = h then { c with parts := parts } else c }

/-- A stream identifier becomes open in a namespace with the first write that carries it (R141). -/
def openStream (nsid sid : Nat) (s : State) : State :=
  if sid = 0 then s else modNs nsid (fun n => { n with streams := if n.streams.contains sid then n.streams else n.streams ++ [sid] }) s

/-- Dispatches an operation to the regions that own its units: the checks of stage 2, then it waits for its commit
points; a reserved write is judged against its bucket (R81, R106, R142). A refused one has no effect but on OVERSIZE. -/
def dispatchWrite (op : WriteOp) (s : State) : State :=
  match nsOf s op.nsid with
  | none => failOp op sNamespace 0 s
  | some n =>
    if op.kind ≠ .invokeOutput && (!attached n op.h.port || n.deleting.isSome) then failOp op sNamespace 0 s
    else match writeRefusal s n op with
      | some st =>
        let s := if st = sVendor 0x81 then
            modResv op.nsid op.sid (fun r => { r with oversize := satAdd 16 r.oversize 1 }) s else s
        failOp op st ((op.granules.head?.map (·.slba)).getD 0) s
      | none =>
        if op.granules.isEmpty then completeOk op.h s
        else
          let s := openStream op.nsid op.sid s
          let parts := op.granules.flatMap fun g => dispatchParts s op.nsid n g.slba g.nlb
          let op := { op with checked := true, held := false, dispatched := s.datum, start := startOf s op.h }
          let s := if op.task.isNone then dispatchTo op.h parts s else s
          match (if op.reserved then resvOf s op.nsid op.sid else none) with
          | none => { s with writes := s.writes ++ [op] }
          | some r =>
            let ok := conforms s.datum op.bytes r
            let op := { op with conforming := ok,
                                deadline := if ok then some (op.start + r.lbound * 100 - 10) else none }
            modResv op.nsid op.sid (bucketTake s.datum op.bytes) { s with writes := s.writes ++ [op] }

/-- Counts a reserved write held after the reserve window (R130, R146, R529). -/
def countDipHeld (s : State) : State :=
  bookCount 12 { s with dump := { s.dump with dipHeld := satAdd 32 s.dump.dipHeld 1 } }

/-- An operation as it is received. -/
def newWrite (h : Sub) (sl nsid : Nat) (kind : WriteKind) (sid : Nat) (reserved : Bool) (gs : List Granule) : WriteOp :=
  { h := h, slice := sl, nsid := nsid, kind := kind, sid := sid, granules := gs, reserved := reserved,
    bytes := (gs.map fun g => g.data.length).sum }

/-- Dump mode holds the dispatch of an operation unless it is a reserved write and the reserve window is open (R126,
R127). -/
def dumpHoldsDispatch (s : State) (reserved : Bool) : Bool := s.dump.active && !(reserved && s.dump.windowOpen)

/-- An operation whose dispatch is held joins the waiting ones; a reserved write held after the window is counted
(R126, R130). -/
def holdDispatch (op : WriteOp) (s : State) : State :=
  let late := op.reserved && !s.dump.windowOpen
  let s := { s with writes := s.writes ++ [{ op with held := true, heldAfterWindow := if late then some s.datum else none }] }
  if late then countDipHeld s else s

/-- An operation is dispatched, or held in dump mode (R126, R127). -/
def enterWrite (op : WriteOp) (s : State) : State :=
  if dumpHoldsDispatch s op.reserved then holdDispatch op s else dispatchWrite op s

/-- The stream that a write names: DSPEC under the Streams directive, else none (R85, R141). -/
def reqStream (q : WriteReq) : Nat := if q.kind = .write ∧ q.dtype = 1 then q.dspec % 65536 else 0

/-- A write whose DSPEC names a stream reserved in its namespace (R141). -/
def reqReserved (s : State) (q : WriteReq) : Bool :=
  decide (q.kind = .write ∧ q.dtype = 1) && (resvOf s q.nsid (reqStream q)).isSome

/-- The granules of a host command; a Dataset Management deallocates its ranges in order (R109, R114). -/
def reqGranules (n : Namespace) (q : WriteReq) : List Granule :=
  q.ranges.flatMap fun r => granulesOf n (q.deac || decide (q.kind = .deallocate)) r.1 r.2
    (if q.kind = .write then fit (r.2 * blockBytes n) q.data else [])

/-- A host command is dispatched (R106): a Write moves at most 16 MiB (R75), under DTYPE 0 or 1 (R85). `ticks` is the
time for which its dispatch was held after a reserve window. -/
def dispatchReq (h : Sub) (q : WriteReq) (ticks : Nat) (s : State) : State :=
  match nsForIo s h q.nsid with
  | none => refuse h sNamespace s
  | some n =>
    if q.kind = .write ∧ (1 < q.dtype ∨ 16777216 < (q.ranges.map (·.2)).sum * blockBytes n) then refuse h sField s
    else dispatchWrite { newWrite h n.slice q.nsid q.kind (reqStream q) (reqReserved s q) (reqGranules n q) with heldTicks := ticks } s

/-- A host command is received: in dump mode its dispatch, with the checks of stage 2, is held (R106, R126). -/
def enterReq (h : Sub) (q : WriteReq) (s : State) : State :=
  if dumpHoldsDispatch s (reqReserved s q) then
    holdDispatch { newWrite h (actSlice s h) q.nsid q.kind (reqStream q) (reqReserved s q) [] with req := some q } s
  else dispatchReq h q 0 s

/-- Write (R106). -/
def execWrite (h : Sub) (nsid slba nlb dtype dspec : Nat) (data : List Byte) (s : State) : Out :=
  .next (enterReq h { kind := .write, nsid := nsid, ranges := [(slba, nlb + 1)], dtype := dtype, dspec := dspec, data := data } s)

/-- Write Zeroes (R109): granules without data; with DEAC they deallocate (R76, R184). -/
def execWriteZeroes (h : Sub) (nsid slba nlb : Nat) (deac : Bool) (s : State) : Out :=
  .next (enterReq h { kind := .writeZeroes, nsid := nsid, ranges := [(slba, nlb + 1)], deac := deac } s)

/-- Dataset Management honours only AD; its ranges are processed in order (R85, R109). -/
def execDatasetManagement (h : Sub) (nsid : Nat) (ad : Bool) (ranges : List (Nat × Nat)) (s : State) : Out :=
  .next (
    if ad then enterReq h { kind := .deallocate, nsid := nsid, ranges := ranges } s
    else if (nsForIo s h nsid).isNone then refuse h sNamespace s
    else completeOk h s)

/-- Flush completes at once: every completed write is durable (R98). -/
def execFlush (h : Sub) (nsid : Nat) (s : State) : Out :=
  .next (if nsid = 0xFFFFFFFF ∨ (nsForIo s h nsid).isSome = true then completeOk h s else refuse h sNamespace s)

/-- The OP code of an operation (R163). -/
def opCode (k : WriteKind) : Nat :=
  match k with
  | .write => 1
  | .writeZeroes => 2
  | .deallocate => 3
  | .invokeOutput => 4

/-- The plaintext that a granule then reads as (R152). -/
def granuleData (n : Namespace) (g : Granule) : List Byte := fit (g.nlb * blockBytes n) g.data

/-! ### What a commit does to the map and the buffer (R107, R181, R184, R187) -/

/-- The lowest free line of set W in a pair that is not broken (R249, R274; which line the spec leaves open: DESIGN
CHOICE, assumption 154). -/
def freeLine (broken : List Nat) (lines : List BufferLine) : Nat :=
  ((List.range (4 * lines.length + 4)).find? fun i => !broken.contains (i % 4) && !lines.any fun l => decide (l.slot = i)).getD 0

/-- Puts the sectors of a range into buffer lines: into the line of their quarter that is not being programmed, else into
a new one (R181). -/
def fillLine (broken : List Nat) (nsid lo hi : Nat) (lines : List BufferLine) (q : Nat) : List BufferLine :=
  let m := quarterMask q lo hi
  let mine := fun l : BufferLine => decide (l.nsid = nsid ∧ l.quarter = q) && l.programmed.isNone
  if lines.any mine then lines.map fun l => if mine l then { l with mask := l.mask ||| m } else l
  else lines ++ [{ nsid := nsid, quarter := q, mask := m, slot := freeLine broken lines }]

/-- The entry of a unit becomes buffered with the data of record `q`, keeping its previous entry (R181, R182). -/
def toBuffered (q : Nat) (e : MapEntry) : MapEntry :=
  if e.kind = .buffered then { e with seq := q }
  else { e with kind := .buffered, slc := false, seq := q, prevKind := e.kind, prevSlc := e.slc, prevDie := e.die,
                prevPpn := e.ppn, prevSb := e.sb }


/-- The whole of unit `u` lies in the range. -/
def coversUnit (n : Namespace) (u slba nlb : Nat) : Bool :=
  decide (slba ≤ u * unitBlocks n ∧ min n.nsze ((u + 1) * unitBlocks n) ≤ slba + nlb)

/-- Lines of a whole unit leave the buffer. -/
def dropUnitLines (nsid u : Nat) (lines : List BufferLine) : List BufferLine :=
  lines.filter fun l => !decide (l.nsid = nsid ∧ l.quarter / 4 = u)

/-- Map and buffer of one unit after a commit over a range by record `q`: a unit that is written is buffered; a unit
that is deallocated or zeroed whole has entry 0b00; zeros over a part of a unit are held in lines (R181, R184). -/
def commitUnit (nsid : Nat) (slba nlb : Nat) (hasData : Bool) (q : Nat) (s : State) (u : Nat) : State :=
  match nsOf s nsid with
  | none => s
  | some n =>
    let k := blockSectors n
    let whole := coversUnit n u slba nlb
    let e := entryOf n u
    if whole && !hasData then
      applyDelta q { s with lines := dropUnitLines nsid u s.lines }
        { nsid := nsid, unit := u, entry := { retained := e.retained, seq := q } }
    else
      let qs := (quartersTouched n slba nlb).filter fun x => decide (x / 4 = u)
      let lines := qs.foldl (fillLine s.dram.brokenPairs nsid (slba * k) ((slba + nlb) * k)) s.lines
      let e := toBuffered q e
      let e := if whole then { e with prevKind := .deallocated } else e
      applyDelta q { s with lines := lines } { nsid := nsid, unit := u, entry := e }

/-- Content, poison, map and buffer after a granule commits with record `q` (R107, R183). -/
def commitContent (nsid : Nat) (w : WriteOp) (g : Granule) (q : Nat) (s : State) : State :=
  match nsOf s nsid with
  | none => s
  | some n =>
    let k := blockSectors n
    let hasData := decide (w.kind = .write ∨ w.kind = .invokeOutput)
    let n := { n with blocks := putBlocks (blockBytes n) g.nlb g.slba (granuleData n g) n.blocks
                      poison := n.poison.filter fun p => !decide (g.slba * k ≤ p ∧ p < (g.slba + g.nlb) * k) }
    let units := unitsTouched n g.slba g.nlb
    let s := units.foldl (commitUnit nsid g.slba g.nlb hasData q) (setNs nsid n s)
    let m := s.media
    { s with media := { m with hostUnits := m.hostUnits + units.length, written := true } }

/-- The deltas of a granule's record: the entries that its units now have (R189). -/
def granuleDeltas (s : State) (nsid : Nat) (g : Granule) : List Delta :=
  match nsOf s nsid with
  | none => []
  | some n => (unitsTouched n g.slba g.nlb).map fun u => { nsid := nsid, unit := u, entry := entryOf n u }

/-! ### Commit (R107, R113 to R116, R127) -/

/-- Bytes that a granule brings into the buffer. -/
def granuleSize (w : WriteOp) (g : Granule) : Nat :=
  if w.kind = .write ∨ w.kind = .invokeOutput then g.data.length else 0

/-- Room for bytes under the limit of the operation's class (R113). -/
def roomFor (s : State) (conforming : Bool) (size : Nat) : Bool :=
  decide (dirtyBytes s + size + (if conforming then 0 else burstSum s) ≤ dirtyLimit s)

/-- An operation that waits for room (R113). -/
def wantsRoom (s : State) (w : WriteOp) : Bool :=
  w.checked && !w.held && (match w.granules[w.committed]? with
    | some g => !roomFor s w.conforming (granuleSize w g)
    | none => false)

/-- Bytes a stream has committed since tick 0, under its key. -/
def streamKey (nsid sid : Nat) : Nat := nsid * 65536 + sid

/-- A reserved write of dump mode is within the reserve window's amount (R127). -/
def windowAllows (s : State) (w : WriteOp) : Bool :=
  match resvOf s w.nsid w.sid with
  | some r => decide (Tab.getD s.dump.streamBytes (streamKey w.nsid w.sid) 0 + w.bytes ≤ r.bw * 20 + r.burst)
  | none => false

/-- An operation is held in dump mode: it is not a conforming reserved write dispatched within the window, or its
amount is exceeded (R126, R127). -/
def dumpHolds (s : State) (w : WriteOp) : Bool :=
  s.dump.active && !(w.reserved && w.conforming && decide (w.dispatched ≤ s.dump.tick0 + 2000000)
    && (decide (0 < w.committed) || windowAllows s w))

/-- Holds an operation (R126, R127): a reserved write held after the window is counted. DESIGN CHOICE (assumption 135):
one that is held already when the window closes is not counted in DIP_HELD. -/
def holdWrite (h : Sub) (s : State) : State :=
  let late := !s.dump.windowOpen
  let now := s.datum
  let counted := late && s.writes.any fun w => decide (w.h = h) && w.reserved && !w.held
  let hold := fun w : WriteOp =>
    { w with held := true, heldAfterWindow := if late && w.reserved then w.heldAfterWindow.or (some now) else w.heldAfterWindow }
  let s := { s with writes := s.writes.map fun w => if w.h = h then hold w else w }
  if counted then countDipHeld s else s

/-- An operation commits in write-through: the device runs it, or it did when buffered operation resumed (R124, R132). -/
def inWriteThrough (s : State) (w : WriteOp) : Bool := s.holdUp.writeThrough || w.wt

/-! ### Links of granules (R156) -/

/-- An operation whose next granule could commit but for its link: past its checks, not held, with room (R107, R113). -/
def linkable (s : State) (nsid : Nat) (w : WriteOp) : Bool :=
  decide (w.nsid = nsid ∧ w.committed < w.granules.length) && w.checked && !w.held && !dumpHolds s w
    && (inWriteThrough s w || !wantsRoom s w)

/-- The next operation of a namespace to commit: the oldest conforming one, else the oldest (R113). -/
def nextToCommit (s : State) (nsid : Nat) : Option WriteOp :=
  (s.writes.find? fun w => w.conforming && linkable s nsid w).or (s.writes.find? (linkable s nsid))

/-- The link of a granule on the present head. -/
def granuleLink (s : State) (nsid : Nat) (n : Namespace) (w : WriteOp) (g : Granule) : Link :=
  makeLink s nsid n.chain g.slba g.nlb (if w.kind = .write then w.sid else 0) (opCode w.kind) (sha256 (granuleData n g))

/-- The keeper of a namespace's chain (R155). -/
def keeperOf (s : State) (nsid : Nat) : Nat := serving s (nsid % 8)

/-- The keeper forms the link of the next granule once its DDIG and the previous link exist (R155, R156). A lane
mismatch is one of the inline hasher that computes DDIG, that of the region which owns the command's first mapping unit
(R106); the hasher of the next lit region recomputes it (R442). -/
def execChainLinkForm (nsid : Nat) (laneMismatch : Bool) (s : State) : Out :=
  .next (match nsOf s nsid with
    | none => s
    | some n =>
      if n.evid = false ∨ (litRegions s).isEmpty = true then s
      else match nextToCommit s nsid with
        | none => s
        | some w =>
          match w.granules[w.committed]?, (n.chain.forming.filter fun f => decide (f.1 = w.h ∧ f.2.1 = w.committed)) with
          | none, _ => s
          | _, some _ => s
          | some g, none =>
            let k := ((w.granules.head?).bind fun g => ownerOf s nsid (g.slba / unitBlocks n)).getD (keeperOf s nsid)
            let s := if laneMismatch then laneFault { kind := 6, index := 2 * k } (2 * nextLit s k) true false s else s
            setNs nsid { n with chain := { n.chain with forming := some (w.h, w.committed, granuleLink s nsid n w g) } } s)

/-- The condition under which the next granule of an operation commits now. -/
def mayCommit (s : State) (n : Namespace) (w : WriteOp) (g : Granule) : Bool :=
  !(litRegions s).isEmpty
    && (!n.evid || (match n.chain.forming with
      | some (h, i, _) => decide (h = w.h ∧ i = w.committed)
      | none => false))
    && (if inWriteThrough s w then !s.media.destageStopped
        else roomFor s w.conforming (granuleSize w g)
          && !((s.writes.takeWhile fun x => decide (x ≠ w)).any fun x => decide (x.conforming = w.conforming) && wantsRoom s x)
          && (w.conforming || !(s.writes.any fun x => x.conforming && wantsRoom s x)))

/-- The failing status of the next granule of an operation (R116). -/
def granuleFails (s : State) (n : Namespace) (w : WriteOp) (hostFault : Bool) : Option Status :=
  if hostFault && decide (w.kind = .write) then some sTransfer
  else if s.media.readOnly then some { sct := 0, sc := 0x20 }
  else if w.granules.any fun g => sealed n g.slba g.nlb then some (sVendor 0x80)
  else none

/-- Takes back a link formed for a granule that does not commit (R115). -/
def unform (nsid : Nat) (h : Sub) (s : State) : State :=
  modNs nsid (fun n => match n.chain.forming with
    | some (x, _, _) => if x = h then { n with chain := { n.chain with forming := none } } else n
    | none => n) s

/-- A granule fails (R116): the operation ends with its status and the first LBA of the granule, and keeps what has
committed; a host command's operation stays until its completion is posted (R145). -/
def failWrite (w : WriteOp) (st : Status) (s : State) : State :=
  let lba := ((w.granules[w.committed]?).map (·.slba)).getD 0
  let s := unform w.nsid w.h s
  match w.task with
  | some _ => failOp w st lba (dropWrite w s)
  | none =>
    let w' := { w with granules := w.granules.take w.committed }
    let s := { s with writes := s.writes.map fun x => if x = w then w' else x }
    failOp w st lba (if w.kind = .write then countWriteCmd s else s)

/-- Finishes an operation whose last granule has committed: its command completes; a write of a release does not. -/
def finishWrite (w : WriteOp) (s : State) : State :=
  match w.task with
  | some _ => dropWrite w s
  | none => completeOk w.h (if w.kind = .write then countWriteCmd s else s)

/-- Host data written by a granule, in 512-byte units (R214). -/
def countWritten (w : WriteOp) (g : Granule) (s : State) : State :=
  if w.kind = .write ∨ w.kind = .invokeOutput then
    { s with smart := { s.smart with unitsWritten := s.smart.unitsWritten + g.data.length / 512 } }
  else s

/-- The next granule of an operation commits (R107, R115): content, map, buffer, journal record and link. In
write-through its data and parity are programmed, and its record is, with every earlier one. -/
def commitGranule (w : WriteOp) (g : Granule) (s : State) : State :=
  match nsOf s w.nsid with
  | none => s
  | some n =>
    let link := if n.evid then n.chain.forming.map (·.2.2) else none
    let s := commitContent w.nsid w g (s.media.seq + 1) s
    let s := journalPut (.granule (granuleDeltas s w.nsid g) link (link.bind (linkMseq n.chain))) s
    let s := match link with
      | some l => appendLink w.nsid l s
      | none => s
    let s := if inWriteThrough s w then
        let units := (unitsTouched n g.slba g.nlb).map fun u => (w.nsid, u)
        drainJournal (settle false (units.length + 1) units s)
      else s
    let s := if s.dump.active && w.reserved then
        let k := streamKey w.nsid w.sid
        { s with dump := { s.dump with streamBytes := Tab.set s.dump.streamBytes k (Tab.getD s.dump.streamBytes k 0 + g.data.length) } }
      else s
    let s := countWritten w g s
    let w' := { w with committed := w.committed + 1 }
    let s := { s with writes := s.writes.map fun x => if x = w then w' else x }
    let s := judgeSpares false s
    if w'.committed = w.granules.length then finishWrite w' s else s

/-- The next granule of a command reaches its commit point, fails, is held, or waits (R107, R113, R116, R126). -/
def execWriteCommit (h : Sub) (hostFault : Bool) (s : State) : Out :=
  .next (match s.writes.find? fun w => decide (w.h = h ∧ w.committed < w.granules.length) with
    | none => s
    | some w =>
      match nsOf s w.nsid, w.granules[w.committed]? with
      | some n, some g =>
        if !w.checked || w.held then s
        else if dumpHolds s w then holdWrite h s
        else match granuleFails s n w hostFault with
          | some st => failWrite w st s
          | none => if mayCommit s n w g then commitGranule w g s else s
      | _, _ => s)

/-- An operation is no longer held: the time it was held after the reserve window is added up (R145). -/
def unhold (now : Nat) (w : WriteOp) : WriteOp :=
  { w with held := false, heldAfterWindow := none
           heldTicks := w.heldTicks + (match w.heldAfterWindow with
             | some d => now - d
             | none => 0) }

/-- Held operations go on, in their original order: those not dispatched are dispatched now (R128, R132). -/
def releaseHeld (s : State) : State :=
  let hs := s.writes.filter fun w => w.held && !w.checked
  let s := { s with writes := (s.writes.filter fun w => !(w.held && !w.checked)).map fun w => if w.held then unhold s.datum w else w }
  hs.foldl (fun s w =>
    let w := unhold s.datum w
    match w.req with
    | some q => dispatchReq w.h q w.heldTicks s
    | none => dispatchWrite w s) s

/-! ### The seal point (R170) -/

/-- An operation changes blocks of a range, or belongs to a release whose named output range overlaps it (R170, R174). -/
def opOverlaps (s : State) (w : WriteOp) (slba nlb : Nat) : Bool :=
  (w.granules.any fun g => overlaps g.slba g.nlb slba nlb)
    || (match (w.task.bind (taskOf s)).bind fun k => k.inv.bind (Tab.get? s.invs) with
      | some x => overlaps x.outSlba (x.outNlb + 1) slba nlb
      | none => false)

/-- The seal point is fixed (R170): every overlapping operation that has not reached its commit point fails. -/
def execSealPointFix (nsid : Nat) (s : State) : Out :=
  .next (match (nsOf s nsid).bind fun n => n.sealing.find? fun p => !p.fixed with
    | none => s
    | some p =>
      let hit := s.writes.filter fun w =>
        decide (w.nsid = nsid ∧ w.committed < w.granules.length) && w.checked && opOverlaps s w p.slba p.nlb
      hit.foldl (fun s w => failWrite w (sVendor 0x80) s) (fixSealPoint nsid s))

/-! ### Latency of reserved writes (R145, R146) -/

/-- Bin of a latency in µs (R146). -/
def latencyBin (us : Nat) : Nat :=
  ((List.range 15).find? fun k => decide (us < 2 ^ (k + 5))).getD 15

/-- Adds one to a bin. -/
def bumpBin (l : List Nat) (k : Nat) : List Nat := (indexed l).map fun e => if e.1 = k then satAdd 32 e.2 1 else e.2

/-- Bytes that an operation has committed. -/
def committedBytes (w : WriteOp) : Nat := ((w.granules.take w.committed).map fun g => g.data.length).sum

/-- A reserved write's completion has been posted, with success or with an error after its dispatch: its latency is
judged and entered (R143, R145, R146). -/
def judgeLatency (w : WriteOp) (s : State) : State :=
  match (if w.reserved then resvOf s w.nsid w.sid else none) with
  | none => s
  | some r =>
    let ticks := s.datum - w.start
    let us := ticks / 100
    let late := w.conforming && decide (r.lbound * 100 < ticks)
    let dip := late && decide (ticks - r.lbound * 100 ≤ w.heldTicks)
    let miss := late && !dip
    let s := bookMax (45 + r.cls % 8) us r.sid (bookHist (3072 + 64 * (r.cls % 8) + 4 * latencyBin us) s)
    let s := modResv w.nsid w.sid (fun r => { r with
      maxLat := max r.maxLat us
      bytes := r.bytes + committedBytes w
      writes := satAdd 32 r.writes 1
      misses := if miss then satAdd 32 r.misses 1 else r.misses
      dipMiss := if dip then satAdd 16 r.dipMiss 1 else r.dipMiss
      missed := r.missed || miss
      bins := bumpBin r.bins (latencyBin us) }) s
    if miss && !r.missed then
      recordNote { level := 3, cls := 0x38, site := chipUnit 16, slice := r.slice, addr := r.sid, aux0 := 145, aux1 := r.nsid } 4 s
    else s

/-- What posting a completion of command `h` does to its finished write: its latency is judged and it is forgotten. -/
def postedWrite (h : Sub) (s : State) : State :=
  match s.writes.find? fun w => decide (w.h = h ∧ w.committed = w.granules.length) with
  | none => s
  | some w => judgeLatency w (dropWrite w s)

/-! ### Reads (R110) -/

/-- A read of a range: none when its command cannot be served yet; else its status, data and first bad LBA. -/
def readRange (s : State) (nsid : Nat) (n : Namespace) (slba cnt : Nat) : Status × List Byte × Nat :=
  match firstBad s nsid n slba cnt with
  | some b => (sMedia 0x81, [], b)
  | none => (sOk, blocksData n slba cnt, 0)

/-- Read returns the plaintext of its range (R110, R180, R198). -/
def execRead (h : Sub) (nsid slba nlb : Nat) (s : State) : Out :=
  .next (match nsForIo s h nsid with
    | none => refuse h sNamespace (countReadCmd s)
    | some n =>
      if 16777216 < (nlb + 1) * blockBytes n then refuse h sField (countReadCmd s)
      else if n.nsze < slba + nlb + 1 then refuse h sLba (countReadCmd s)
      else if rangeWaits s n slba (nlb + 1) then s
      else
        let r := readRange s nsid n slba (nlb + 1)
        let s := countReadCmd (lookupPages nsid n slba (nlb + 1) (dispatchTo h (dispatchParts s nsid n slba (nlb + 1)) s))
        completeAt h r.1 0 0 r.2.1 nsid r.2.2 (countRead ((nlb + 1) * blockSectors n) s))

/-- Verify checks a range without returning data (R85). -/
def execVerify (h : Sub) (nsid slba nlb : Nat) (s : State) : Out :=
  .next (match nsForIo s h nsid with
    | none => refuse h sNamespace s
    | some n =>
      if n.nsze < slba + nlb + 1 then refuse h sLba s
      else if rangeWaits s n slba (nlb + 1) then s
      else
        let r := readRange s nsid n slba (nlb + 1)
        completeAt h r.1 0 0 [] nsid r.2.2
          (lookupPages nsid n slba (nlb + 1) (dispatchTo h (dispatchParts s nsid n slba (nlb + 1)) s)))

end Sys2Proof.Machine
end

