-- ==== Sys2Proof/Machine/Flash.lean ====
section
/-! DEFINITION. Flash translation (R185 to R213) and NAND (R226 to R242): destage, journal, checkpoints, map pages, reclaim,
relocation, dies, blocks and channels. -/

namespace Sys2Proof.Machine

/-! ### Destage (R112, R181, R183) -/

/-- A unit that destage may place: it is buffered with lines not yet being programmed, and its parity mode is that of
the superblock. -/
def destageable (s : State) (par2 dump : Bool) (p : Nat × Nat) : Bool :=
  match nsOf s p.1 with
  | some n => (dump || decide (n.par2 = par2)) && decide ((entryOf n p.2).kind = .buffered)
      && s.lines.any fun l => decide (l.nsid = p.1 ∧ l.quarter / 4 = p.2) && l.programmed.isNone
  | none => false

/-- Units with lines in a broken pair of DRAM channels go before all others, but for the dump (R274). -/
def pairFirst (s : State) (dump : Bool) (b : Superblock) (units : List (Nat × Nat)) : Bool :=
  let urgent := fun p : Nat × Nat => s.lines.any fun l =>
    decide (l.nsid = p.1 ∧ l.quarter / 4 = p.2) && l.programmed.isNone && s.dram.brokenPairs.contains (l.slot % 4)
  dump || units.all urgent
    || (bufferedUnits s).all fun p => !(urgent p && destageable s b.par2 b.dump p) || units.contains p

/-- Destage programs the next stripe of a superblock with buffered units (R112, R195). `lost` names the sectors (by
number within their unit) that cannot be read from the previous location even after parity rebuild (R183). A superblock
that is not open is formed first, in a group that the spec leaves open (free value, assumption 19). In dump mode only dump
superblocks take stripes (R126); a group with two free superblocks or fewer takes no host data (R200). `xts` names the
channels whose XTS unit has found its lanes to differ (R502). -/
def execDestageStripeProgram (sb : Nat) (units : List (Nat × Nat)) (lost : List (Nat × Nat × Nat))
    (xts : List (Fin 32 × LaneCheck)) (s : State) : Out :=
  .next (
    let dump := s.dump.active
    let par2 := (if dump then anyPar2 s else (units.head?.bind fun p => nsOf s p.1).elim false (·.par2))
    let gs := destageGroups s dump
    let fresh := !Tab.has s.media.sbs sb
    if units.isEmpty || (fresh && gs.isEmpty) then s
    else
      let s := if fresh then openSb sb (gs.getD (freeNat s % gs.length) 0) par2 dump false (drew 1 s) else s
      match Tab.get? s.media.sbs sb with
      | none => s
      | some b =>
        if takesStripe s b && programRoom s b && decide (b.dump = dump ∧ some sb ≠ s.media.wlTarget)
            && (fresh || groupOpen s dump b.group)
            && pairFirst s dump b units && decide (units.length ≤ (dataMembers s b b.nextStripe).length ∧ units.Nodup)
            && units.all (destageable s b.par2 b.dump) then
          destageStripe sb b units lost (xts.foldl (fun s x => channelLanes x.1.val x.2 s) s)
        else s)

/-- The oldest stripe issued to a superblock is complete: its buffer lines are released (R112). -/
def execNandProgramComplete (sb : Nat) (s : State) : Out := .next (stripeDone sb s)

/-! ### Valid units (R201, R205) -/

/-- A placed unit is valid while its map entry points to its page. -/
def unitValid (s : State) (sb : Nat) (b : Superblock) (p : Placed) : Bool :=
  match p.what with
  | .mapPage nsid page => decide ((Tab.getD s.media.pages (pageKey nsid page) {}).place = some (memberPage s b p.member p.stripe))
  | .unit nsid u =>
    match nsOf s nsid with
    | none => false
    | some n =>
      let e := entryOf n u
      let pg := memberPage s b p.member p.stripe
      (decide (e.kind = .onNand ∧ e.sb = sb ∧ e.die = pg.1 ∧ e.ppn = pg.2))
        || (decide (e.kind = .buffered ∧ e.prevKind = .onNand ∧ e.prevSb = sb ∧ e.prevDie = pg.1 ∧ e.prevPpn = pg.2))

/-- Valid units of a superblock, and its valid map pages. -/
def validUnits (s : State) (sb : Nat) (b : Superblock) : List Placed := b.placed.filter (unitValid s sb b)

/-- Mean erase count of a superblock's blocks. -/
def sbErase (s : State) (b : Superblock) : Nat :=
  (b.members.map fun m => (Tab.getD s.media.blocks (blockKey m.1 m.2) {}).ec).sum / max 1 b.members.length

/-! ### Map pages (R185 to R188) -/

/-- Changes a map page that has a record. -/
def modPage (nsid page : Nat) (f : MapPage → MapPage) (s : State) : State :=
  { s with media := { s.media with pages := Tab.modify s.media.pages (pageKey nsid page) f } }

/-- A map page as it is programmed (R185). -/
def mapPagePlaced (s : State) (nsid page : Nat) : Option Placed :=
  (nsOf s nsid).map fun n =>
    let p := Tab.getD s.media.pages (pageKey nsid page) {}
    let q := max p.seq p.mediaSeq
    { stripe := 0, member := 0, what := .mapPage nsid page, seq := q, data := mapPageImage nsid n page q }

/-- The map writer programs dirty pages into superblocks of the device-wide parity mode (R186, R196), as many stripes as
they take; `done` completes the programs too. -/
def writeMapPages (done : Bool) : Nat → List (Nat × Nat) → State → State
  | 0, _, s => s
  | _, [], s => s
  | fuel + 1, p :: ps, s =>
    match openTarget (anyPar2 s) false s with
    | none => s
    | some (sb, s) =>
      match Tab.get? s.media.sbs sb with
      | none => s
      | some b =>
        let now := (p :: ps).take (max 1 (dataMembers s b b.nextStripe).length)
        let s := programStripe sb b (now.filterMap fun x => mapPagePlaced s x.1 x.2) s
        let s := if done then (List.range (b.programming.length + 1)).foldl (fun s _ => stripeDone sb s) s else s
        writeMapPages done fuel ((p :: ps).drop now.length) s

/-- The superblock with a member block that holds a page, and the member's position. -/
def sbAt (s : State) (die ppn : Nat) : Option (Nat × Nat) :=
  let blk := ppn / max 1 (geometry s).pagesPerBlock
  s.media.sbs.findSome? fun b => (b.2.members.findIdx? fun m => decide (m = (die, blk))).map fun i => (b.1, i)

/-- A map page lies in a superblock that is being emptied, or on a retired die, so that it must be written anew (R199,
R201). -/
def pageMoves (s : State) (p : MapPage) : Bool :=
  p.place.any fun pg => s.media.rebuilding.contains pg.1 || (sbAt s pg.1 pg.2).any fun x => Tab.has s.media.sources x.1

/-- The map writer writes a page back that is dirty or must move (R186, R201): it is clean once the program completes. -/
def execMapPageWriteback (nsid page : Nat) (s : State) : Out :=
  .next (
    let p := Tab.getD s.media.pages (pageKey nsid page) {}
    if (p.cached && p.dirty || pageMoves s p) && !s.dump.active then writeMapPages false 1 [(nsid, page)] s else s)

/-- The dirty pages of the cache. -/
def dirtyPages (s : State) : List (Nat × Nat) :=
  (s.media.pages.filter fun e => e.2.cached && e.2.dirty).map fun e => (e.1 / 2 ^ 32, e.1 % 2 ^ 32)

/-- Deltas of a record. -/
def recordDeltas (r : JournalRecord) : List (Nat × Delta) :=
  match r.body with
  | .granule ds _ _ => ds.map fun d => (r.seq, d)
  | .move ds => ds.map fun d => (r.seq, d)
  | _ => []

/-- The deltas of the journal for a page that are newer than a sequence (R188). -/
def deltasAfter (s : State) (nsid page q : Nat) : List (Nat × Delta) :=
  ((s.media.log ++ s.media.journal).flatMap recordDeltas).filter fun e =>
    decide (q < e.1 ∧ e.2.nsid = nsid ∧ pageOf e.2.unit = page)

/-- A cached map page reads uncorrectable: it is discarded, and the mirrored journal's deltas that are newer than the
page on NAND wait to be applied again when it has been reloaded (R188). -/
def reloadPage (nsid page : Nat) (s : State) : State :=
  let s := { s with media := { s.media with mapReloads := s.media.mapReloads + 1 } }
  modPage nsid page (fun p => { p with cached := false, dirty := false, pending := deltasAfter s nsid page p.mediaSeq }) s

/-- The class 0x10 entry of a map page that is not readable as it lies on NAND (R188, R198). -/
def pageEntry (s : State) (nsid page lost : Nat) (p : MapPage) : LogEntry :=
  { level := 4, cls := 0x10, site := { kind := 8, index := (p.place.map (·.1)).getD 0 }
    addr := ((nsOf s nsid).map fun n => 3264 * page * unitBlocks n).getD 0, aux0 := nsid, aux1 := lost }

/-- A map page arrives: the pending deltas are applied (R187). `lost` is the number of unreadable members of its stripe
when the page on NAND is uncorrectable: it is rebuilt, a masked fault, or lost with its units until it is reconstructed,
a detected one (R188). -/
def execMapPageLoadComplete (nsid page : Nat) (lost : Option Nat) (s : State) : Out :=
  .next (
    let p := Tab.getD s.media.pages (pageKey nsid page) {}
    if p.cached || p.lost then s
    else match lost with
      | none => cachePage nsid page s
      | some k =>
        let par := match (p.place.bind fun pg => sbAt s pg.1 pg.2).bind fun x => Tab.get? s.media.sbs x.1 with
          | some b => parityCount b.par2
          | none => parityCount (anyPar2 s)
        if k ≤ par then
          cachePage nsid page (recordMasked (pageEntry s nsid page k p)
            { s with media := { s.media with parityRebuilds := s.media.parityRebuilds + 1 } })
        else
          let s := recordDetected (pageEntry s nsid page k p) s
          { s with media := { s.media with pages := Tab.set s.media.pages (pageKey nsid page) { p with lost := true } } })

/-- The copies of a page's units in closed superblocks, by their metadata: superblock and page (R182, R188). -/
def copiesOf (s : State) (nsid page : Nat) : List (Nat × Nat × Superblock × Placed) :=
  s.media.sbs.flatMap fun e => if e.2.state ≠ .closed then [] else e.2.placed.filterMap fun p =>
    match p.what with
    | .unit n u => if n = nsid ∧ pageOf u = page then some (u, e.1, e.2, p) else none
    | .mapPage _ _ => none

/-- A unit takes the copy with the highest journal sequence; a newer delta of the journal wins over it (R188). A sealed
unit marked 0b11 stays marked (R178). -/
def reconstructUnit (nsid page : Nat) (copies : List (Nat × Nat × Superblock × Placed)) (s : State) (u : Nat) : State :=
  match nsOf s nsid with
  | none => s
  | some n =>
    let e := entryOf n u
    let best := (copies.filter fun c => decide (c.1 = u)).foldl (fun (b : Option (Nat × Superblock × Placed)) c => match b with
      | none => some c.2
      | some x => if x.2.2.seq < c.2.2.2.seq then some c.2 else some x) none
    match best with
    | none => s
    | some (sb, b, p) =>
      let pg := memberPage s b p.member p.stripe
      let newer := (deltasAfter s nsid page p.seq).any fun d => decide (d.2.unit = u)
      if e.retained || newer then s
      else if e.kind = .buffered then setNs nsid { n with map := Tab.set n.map u (movedTo b e pg sb) } s
      else
        let k := blockSectors n
        setNs nsid { n with
          map := Tab.set n.map u { landed b e pg sb with seq := p.seq }
          blocks := putBlocks (blockBytes n) (unitBlocks n) (u * unitBlocks n) p.data n.blocks
          poison := (n.poison.filter fun x => !decide (u * unitBlocks n * k ≤ x ∧ x < (u + 1) * unitBlocks n * k))
            ++ p.poison.map fun i => 32 * u + i } s

/-- An unreadable map page has been reconstructed from the codeword metadata of every closed superblock (R188): it is in
the cache, and dirty. -/
def execMapPageReconstruct (nsid page : Nat) (s : State) : Out :=
  .next (
    if !(Tab.getD s.media.pages (pageKey nsid page) {}).lost then s
    else
      let copies := copiesOf s nsid page
      let s := (copies.map (·.1)).eraseDups.foldl (reconstructUnit nsid page copies) s
      let s := evictPage (modPage nsid page (fun p => { p with lost := false }) s)
      if cacheRoom s then
        modPage nsid page (fun p => { p with cached := true, dirty := true, used := s.datum, seq := s.media.seq, pending := [] }) s
      else s)

/-! ### Journal and checkpoints (R189 to R192) -/

/-- Both programs of the oldest record are complete: records leave the DRAM journal in SEQ order (R190). -/
def execJournalRecordDurable (seq : Nat) (s : State) : Out :=
  .next (match s.media.journal with
    | [] => s
    | r :: _ => if r.seq = seq then recordDurable s else s)

/-- The block table (R192): states, valid counts and erase counts. -/
def blockTable (s : State) : List TableEntry :=
  s.media.sbs.map fun e => { sb := e.1, state := e.2.state, valid := (validUnits s e.1 e.2).length, erases := sbErase s e.2 }

/-- The map directory: the place of every map page on NAND (R185). -/
def mapDirectory (s : State) : List (Nat × Nat × Nat) := s.media.pages.filterMap fun e => e.2.place.map fun pg => (e.1, pg.1, pg.2)

/-- The checkpoint at P. Where its table and directory lie in the system area the spec leaves open (free values). -/
def makeCheckpoint (p : Nat) (s : State) : Checkpoint :=
  { p := p, table := blockTable s
    erases := s.media.blocks.map fun b => (b.1, b.2.ec)
    retiredBlocks := (s.media.blocks.filter fun b => b.2.retired).map (·.1)
    retiredDies := (s.media.dies.filter fun d => decide (d.2.state = .retired)).map (·.1)
    directory := mapDirectory s, places := (freeNat s, freeNat (drew 1 s)) }

/-- Makes a checkpoint (R192): the present SEQ is P, every dirty map page is written back, then the block table and the
map directory, then a CHECKPOINT record. The two newest are kept, and the log from the older one on. The model makes it
in one step. -/
def checkpoint (s : State) : State :=
  let p := s.media.seq
  let dirty := dirtyPages s
  let s := writeMapPages true (dirty.length + 1) dirty s
  let c := makeCheckpoint p s
  let s := journalPut (.checkpoint p c.places.1 c.places.2) (drew 2 s)
  let m := s.media
  let kept := (c :: m.checkpoints).take 2
  { s with media := { m with
    checkpoints := kept
    log := match kept.getLast? with
      | some old => m.log.filter fun r => decide (old.p < r.seq)
      | none => m.log
    checkpointDt := s.datum
    checkpointOp := s.opsec
    journalBytes := 0 } }

/-- A checkpoint is due by itself: 64 MiB of journal, 65,536 dirty pages, or 30 s of operation (R192). -/
def checkpointDue (s : State) : Bool :=
  decide (67108864 ≤ s.media.journalBytes ∨ 65536 ≤ (dirtyPages s).length ∨ s.media.checkpointOp + 30 ≤ s.opsec)

/-- A trigger of a checkpoint (R192); a shutdown and an activation make theirs themselves. -/
def execCheckpointStart (s : State) : Out := .next (if checkpointDue s then checkpoint s else s)

/-! ### Retirement of blocks (R230, R231) -/

/-- Retires a block: RETIRE record, GROWN_BAD, spare count (R230, R210). Answers the state; `cause` as in class 0x11. -/
def retireBlock (die blk cause : Nat) (s : State) : State :=
  let k := blockKey die blk
  let b := Tab.getD s.media.blocks k {}
  if b.retired then s
  else
    let x := dieOf s die
    let x := { x with good := x.good - 1, grownBad := satAdd 16 x.grownBad 1, freeBlocks := x.freeBlocks.filter (· ≠ blk)
                      retiredAt := s.opsec :: x.retiredAt.filter fun t => decide (s.opsec < t + 86400) }
    let m := s.media
    let s := { s with media := { m with
      blocks := Tab.set m.blocks k { b with retired := true }
      dies := Tab.set m.dies die x
      grownBad := m.grownBad + 1 } }
    let ppn := blk * (geometry s).pagesPerBlock
    let s := recordMasked { level := 4, cls := 0x11, site := { kind := 8, index := die }, addr := ppn, aux0 := cause } s
    judgeSpares true (journalPut (.retire die (some blk)) s)

/-! ### Units that stay uncorrectable (R198) -/

/-- The block of a unit's page on NAND is due for refresh (R228). -/
def refreshUnit (nsid unit : Nat) (s : State) : State :=
  match nsOf s nsid with
  | none => s
  | some n =>
    let k := entryBlock s (entryOf n unit)
    { s with media := { s.media with blocks := Tab.set s.media.blocks k { Tab.getD s.media.blocks k {} with refresh := true } } }

/-- The superblock that holds a unit. -/
def sbOf (e : MapEntry) : Nat := if e.kind = .buffered then e.prevSb else e.sb

/-- A unit whose codewords stay uncorrectable (R198): rebuilt from its stripe while no more members than the parity
count of its superblock are unreadable, a masked fault, its block then due for refresh and the unit for relocation; else
marked 0b11. -/
def rebuildUnit (nsid unit membersLost : Nat) (s : State) : State :=
  match nsOf s nsid with
  | none => s
  | some n =>
    let e := entryOf n unit
    let par := match Tab.get? s.media.sbs (sbOf e) with
      | some b => parityCount b.par2
      | none => parityCount n.par2
    let die := if e.kind = .buffered then e.prevDie else e.die
    let x : LogEntry := { level := 4, cls := 0x10, site := { kind := 8, index := die }, slice := n.slice,
                          addr := unit * unitBlocks n, aux0 := nsid, aux1 := membersLost }
    if membersLost ≤ par then
      let m := s.media
      refreshUnit nsid unit (recordMasked x { s with media := { m with
        parityRebuilds := m.parityRebuilds + 1
        relocate := if m.relocate.contains (nsid, unit) then m.relocate else m.relocate ++ [(nsid, unit)] } })
    else markUnreadable nsid unit (recordDetected x s)

/-! ### Retirement of dies (R199, R231) -/

/-- Positions of a superblock on retired dies whose rebuild is not complete. -/
def lostMembers (s : State) (b : Superblock) : List Nat :=
  (List.range b.members.length).filter fun i => (b.members[i]?).any fun m => s.media.rebuilding.contains m.1

/-- Units that too many retired dies share become unreadable (R199, R198). -/
def loseShared (s : State) (e : Nat × Superblock) : State :=
  let lost := lostMembers s e.2
  if lost.length ≤ parityCount e.2.par2 then s
  else (validUnits s e.1 e.2).foldl (fun s p => match p.what with
    | .unit nsid u => if lost.contains p.member then rebuildUnit nsid u lost.length s else s
    | .mapPage _ _ => s) s

/-- Retires a die (R199, R231): its redundancy is lost until the rebuild is complete; the baseline is computed again.
`cause` as in class 0x11. -/
def retireDie (die cause : Nat) (s : State) : State :=
  let x := dieOf s die
  if x.state ≠ .inService then s
  else
    let spare := spareOf s x
    let m := s.media
    let s := withMediaWarning (fun s => { s with media := { m with
      dies := Tab.set m.dies die { x with state := .retired, spareAtRetire := spare, cause := cause, freeBlocks := [],
                                          poolBlocks := [], sysBlocks := [] }
      rebuilding := m.rebuilding ++ [die] } }) s
    let s := recordMasked { level := 4, cls := 0x11, site := { kind := 8, index := die }, aux0 := cause } s
    let s := s.media.sbs.foldl loseShared (journalPut (.retire die none) s)
    judgeDestage (baselineTrigger 1 (judgeSpares true s))

/-- A die retires more than 64 blocks within 24 hours of operation (R231). -/
def judgeDie (die : Nat) (s : State) : State :=
  let x := dieOf s die
  if 64 < (x.retiredAt.filter fun t => decide (s.opsec < t + 86400)).length then retireDie die 6 s else s

/-- The member blocks that a superblock leaves unusable when the block of `die` fails: a superblock keeps at least 24
members (R197, R230). -/
def fellows (b : Superblock) (die : Nat) : List (Nat × Nat) :=
  if b.members.length ≤ 24 then b.members.filter fun m => decide (m.1 ≠ die) else []

/-- The stripes that a superblock is programming are given up: their units go back to the buffer, where both copies
still are, and their copies to their sources (R112, R230). -/
def giveUpStripes (sb : Nat) (b : Superblock) (s : State) : State :=
  let back := fun l : BufferLine => match l.programmed with
    | some p => if b.programming.contains (p % 2 ^ 24) && decide (p / 2 ^ 24 = sb) then { l with programmed := none } else l
    | none => l
  modSb sb (fun b => { b with
    programming := []
    filling := none
    placed := b.placed.filter fun p => !b.programming.contains p.stripe
    parity := b.parity.filter fun p => !b.programming.contains p.1 }) { s with lines := s.lines.map back }

/-- A program reports fail (R230): the block is retired and the stripes are programmed again, with the member blocks
that the superblock leaves unusable retired too; in dump mode at the next stripes of the same superblock, which leaves
the failing die's pages unused. -/
def programFail (die sb : Nat) (s : State) : State :=
  match Tab.get? s.media.sbs sb with
  | none => s
  | some b =>
    match b.members.findIdx? fun m => decide (m.1 = die) with
    | none => s
    | some i =>
      let blk := ((b.members[i]?).map (·.2)).getD 0
      let s := giveUpStripes sb b s
      if b.dump && s.dump.active then
        judgeDestage (judgeDie die (retireBlock die blk 1 (modSb sb (fun b => { b with dead := b.dead ++ [i] }) s)))
      else
        let gone := (die, blk) :: fellows b die
        let s := gone.foldl (fun s m => retireBlock m.1 m.2 1 s) (setSbState sb .closed s)
        judgeDestage (gone.foldl (fun s m => judgeDie m.1 s) s)

/-- A program reports fail (R230). -/
def execProgramFail (die sb _page : Nat) (s : State) : Out := .next (programFail die sb s)

/-- An erase reports fail: the block of the die is retired (R230). -/
def execEraseFail (die sb : Nat) (s : State) : Out :=
  .next (match (Tab.get? s.media.sbs sb).bind fun b => b.members.find? fun m => decide (m.1 = die) with
    | none => s
    | some m =>
      let s := modSb sb (fun b => { b with members := b.members.filter fun x => decide (x.1 ≠ die) }) s
      judgeDestage (judgeDie die (retireBlock m.1 m.2 2 s)))

/-- A die stays busy beyond four times its maximum (R231). -/
def execDieBusyTimeout (die : Nat) (s : State) : Out := .next (retireDie die 3 s)

/-- A die is retired for a cause of R231 (R199). -/
def execDieRetire (die cause : Nat) (s : State) : Out := .next (retireDie die cause s)

/-- A die holds a valid unit or map page. -/
def dieInUse (s : State) (die : Nat) : Bool :=
  s.media.sbs.any fun e => (validUnits s e.1 e.2).any fun p => (e.2.members[p.member]?).any fun m => decide (m.1 = die)

/-- Relocation is complete once no valid unit has a member on the retired die (R199). -/
def execRedundancyRebuildComplete (die : Nat) (s : State) : Out :=
  .next (if dieInUse s die then s
    else { s with media := { s.media with rebuilding := s.media.rebuilding.filter (· ≠ die) } })

/-! ### Reclaim, relocation, erase (R200 to R206) -/

/-- A superblock that reclaim, refresh or wear levelling may empty. -/
def reclaimable (s : State) (g sb : Nat) (b : Superblock) : Bool :=
  decide (b.group = g ∧ b.state = .closed) && b.programming.isEmpty && !Tab.has s.media.sources sb

/-- Superblocks of a group that wait for refresh (R228). -/
def refreshing (s : State) (b : Superblock) : Bool :=
  b.members.any fun m => (Tab.getD s.media.blocks (blockKey m.1 m.2) {}).refresh

/-- The source that reclaim selects in a group (R201): SLC dump data first, then fewest valid units, then lowest erase
count. -/
def reclaimSource (s : State) (g : Nat) : Option Nat :=
  let l := s.media.sbs.filter fun b => reclaimable s g b.1 b.2
  let key := fun b : Nat × Superblock =>
    ((if b.2.slc && b.2.dump then 0 else 1) * 2 ^ 32 + (validUnits s b.1 b.2).length) * 2 ^ 32 + sbErase s b.2
  (l.foldl (fun (b : Option (Nat × Superblock)) x => match b with
    | none => some x
    | some y => if key x < key y then some x else some y) none).map (·.1)

/-- Reclaim selects a source in a group with fewer than 8 free superblocks; while refresh has work too, the two
alternate (R200, R201, R228). -/
def execReclaimSourceSelect (group : Nat) (s : State) : Out :=
  .next (
    let refresh := (s.media.sbs.find? fun b => reclaimable s group b.1 b.2 && refreshing s b.2).map fun b => (b.1, MoveCause.refresh)
    let reclaim := (if freeSbCount s group < 8 then reclaimSource s group else none).map fun sb => (sb, MoveCause.reclaim)
    let pick := if s.media.refreshTurn then refresh.or reclaim else reclaim.or refresh
    match pick with
    | none => s
    | some (sb, cause) =>
      { s with media := { s.media with
        sources := Tab.set s.media.sources sb cause
        refreshTurn := if refresh.isSome && reclaim.isSome then !s.media.refreshTurn else s.media.refreshTurn } })

/-- A free page that a copy may take (R195, R203): a unit's page of an open superblock of the namespace's parity mode,
in its next stripe or in the one that copies are filling; wear levelling has its superblock to itself (R206). Answers
the superblock, the member and the stripe. -/
def freePage (s : State) (n : Namespace) (src die ppn : Nat) : Option (Nat × Superblock × Nat × Nat) :=
  match sbAt s die ppn with
  | none => none
  | some (sb, i) =>
    match Tab.get? s.media.sbs sb with
    | none => none
    | some b =>
      let stripe := ppn % max 1 (geometry s).pagesPerBlock
      let wear := decide (Tab.get? s.media.sources src = some .wear)
      if decide (b.state = .opened ∧ b.dump = false ∧ b.par2 = n.par2 ∧ sb ≠ src ∧ wear = decide (some sb = s.media.wlTarget))
          && (if stripe = b.nextStripe then takesStripe s b else decide (b.filling = some stripe))
          && (dataMembers s b stripe).contains i && !(b.placed.any fun p => decide (p.stripe = stripe ∧ p.member = i)) then
        some (sb, b, i, stripe)
      else none

/-- The page that a copy takes, in a superblock that reclaim forms where the page lies in the block that its die would
give (R197, R200). -/
def copyTarget (s : State) (n : Namespace) (src die ppn : Nat) : Option (State × Nat × Superblock × Nat × Nat) :=
  match freePage s n src die ppn with
  | some x => some (s, x)
  | none =>
    let blk := ppn / max 1 (geometry s).pagesPerBlock
    let l := formable s false (groupOf die)
    if (sbAt s die ppn).isNone && l.contains die && decide (24 ≤ l.length ∧ blockGiven s false false die = blk) then
      let s := openSb s.media.nextSb (groupOf die) n.par2 false false s
      (freePage s n src die ppn).map fun x => (s, x)
    else none

/-- A page joins a stripe, whose parity then covers it (R195); the last page of a superblock closes it. -/
def placePage (sb : Nat) (b : Superblock) (i stripe : Nat) (page : Placed) (s : State) : State :=
  let placed := b.placed ++ [{ page with stripe := stripe, member := i }]
  let mine := placed.filter fun p => decide (p.stripe = stripe)
  let pq := stripeParity b.par2 (mine.map fun p => (p.member, pageImage s p))
  let full := decide (pagesOf s b.slc ≤ stripe + 1 ∧ (dataMembers s b stripe).length ≤ mine.length)
  let s := modSb sb (fun b => { b with
    placed := placed
    parity := (b.parity.filter fun p => decide (p.1 ≠ stripe)) ++ [(stripe, pq)]
    nextStripe := max b.nextStripe (stripe + 1)
    filling := some stripe
    programming := if b.programming.contains stripe then b.programming else b.programming ++ [stripe] }) s
  let s := { s with media := { s.media with nandUnits := s.media.nandUnits + 1 } }
  if full then setSbState sb .closed s else s

/-- The page that a unit's place on NAND holds, as it was programmed; a unit that was settled outside any superblock has
its present data. -/
def sourcePage (s : State) (nsid u : Nat) (n : Namespace) : Placed :=
  let e := entryOf n u
  let pg := if e.kind = .buffered then (e.prevDie, e.prevPpn) else (e.die, e.ppn)
  match (Tab.get? s.media.sbs (sbOf e)).bind fun b =>
      b.placed.find? fun p => decide (p.what = .unit nsid u ∧ memberPage s b p.member p.stripe = pg) with
  | some p => p
  | none => unitPage nsid n u

/-- A copy of a unit is programmed at a free page; the MOVE record follows when the program is complete (R203). -/
def copyUnit (nsid u die ppn : Nat) (n : Namespace) (s : State) : State :=
  let e := entryOf n u
  match copyTarget s n (sbOf e) die ppn with
  | none => s
  | some (s, sb, b, i, stripe) => placePage sb b i stripe { sourcePage s nsid u n with source := some (e, sbOf e) } s

/-- A valid unit is copied to a new page (R203): one that cannot be read even with parity rebuild becomes 0b11 (R198); a
sealed one is checked against its manifest, as read (`matches1`) and after rebuild (`matches2`) (R178). -/
def execUnitRelocate (nsid unit dstDie dstPpn : Nat) (readable matches1 matches2 : Bool) (s : State) : Out :=
  .next (match nsOf s nsid with
    | none => s
    | some n =>
      let e := entryOf n unit
      let on := if e.kind = .buffered then e.prevKind = .onNand else e.kind = .onNand
      if !decide on then s
      else if unitSealed n unit then
        if readable && matches1 then copyUnit nsid unit dstDie dstPpn n s
        else if matches2 then copyUnit nsid unit dstDie dstPpn n (sealRebuilt nsid unit n s)
        else sealMismatch nsid unit n s
      else if readable then copyUnit nsid unit dstDie dstPpn n s
      else
        let s := markUnreadable nsid unit s
        { s with media := { s.media with relocate := s.media.relocate.filter (· ≠ (nsid, unit)) } })

/-- All MOVE records of a source are durable, and nothing valid is left in it (R203). -/
def sourceReady (s : State) (sb : Nat) (b : Superblock) : Bool :=
  (b.moves.all fun q => !(s.media.journal.any fun r => decide (r.seq = q)))
    && (validUnits s sb b).isEmpty && b.programming.isEmpty && decide (b.state = .closed)

/-- The erase of a source begins: an SB_STATE record marks it as erasing (R203). -/
def execSourceErase (sb : Nat) (s : State) : Out :=
  .next (match Tab.get? s.media.sbs sb with
    | none => s
    | some b => if sourceReady s sb b && !s.dump.active then setSbState sb .erasing s else s)

/-- A block of an erased superblock: its erase is counted and its record starts again; a retained or retired block does
not return (R178, R206, R226). -/
def eraseBlock (s : State) (m : Nat × Nat) : State :=
  let k := blockKey m.1 m.2
  let b := Tab.getD s.media.blocks k {}
  if !b.retainedFor.isEmpty || b.retired then s
  else
    let x := dieOf s m.1
    let md := s.media
    { s with media := { md with
      blocks := Tab.set md.blocks k { ec := b.ec + 1 }
      dies := if x.state = .inService then Tab.set md.dies m.1 { x with freeBlocks := x.freeBlocks ++ [m.2] } else md.dies } }

/-- The erase is complete: the blocks are free and an SB_STATE record marks the superblock erased (R203). In dump mode
erases are suspended (R126). -/
def execEraseComplete (sb : Nat) (s : State) : Out :=
  .next (match Tab.get? s.media.sbs sb with
    | none => s
    | some b =>
      if b.state ≠ .erasing ∨ s.dump.active = true then s
      else
        let s := b.members.foldl eraseBlock s
        let m := s.media
        let cause := Tab.get? m.sources sb
        let s := journalPut (.sbState sb .free b.par2 b.members) { s with media := { m with
          sbs := Tab.erase m.sbs sb
          sources := Tab.erase m.sources sb
          wlTarget := if cause = some .wear then none else m.wlTarget
          reclaimed := if cause = some .reclaim then m.reclaimed + 1 else m.reclaimed } }
        judgeDestage (judgeSpares false s))

/-- Blocks of a die that are in service: not marked bad by the factory and not retired. -/
def blocksInService (s : State) (die : Nat) (x : Die) : List Nat :=
  (List.range x.blocks).filter fun i => !x.factoryBad.contains i && !(Tab.getD s.media.blocks (blockKey die i) {}).retired

/-- Erase counts of the blocks in service; blocks without a record have count 0. -/
def eraseCounts (s : State) : List Nat :=
  (diesInService s).flatMap fun d => (blocksInService s d.1 d.2).map fun i => (Tab.getD s.media.blocks (blockKey d.1 i) {}).ec

/-- Highest and lowest erase count differ by more than 500 (R206). -/
def wearSpread (s : State) : Bool :=
  match eraseCounts s with
  | [] => false
  | c :: cs => decide (cs.foldl min c + 500 < cs.foldl max c)

/-- Sum of the erase counts and number of the blocks that a group's free superblock of highest erase count has (R206). -/
def wornGroup (s : State) (g : Nat) : Nat × Nat :=
  let l := formable s false g
  ((l.map fun d => (Tab.getD s.media.blocks (blockKey d (blockGiven s false true d)) {}).ec).sum, l.length)

/-- The group whose free superblock has the highest mean erase count (R206). -/
def wornest (s : State) : Option Nat :=
  let gs := (List.range (groupCount s)).filter fun g => decide (24 ≤ (wornGroup s g).2)
  gs.foldl (fun (b : Option Nat) g => match b with
    | none => some g
    | some x => if (wornGroup s x).1 * (wornGroup s g).2 < (wornGroup s g).1 * (wornGroup s x).2 then some g else some x) none

/-- Wear levelling takes the closed superblock with the lowest mean erase count as a source, when the spread exceeds 500,
at most once for every 64 superblocks that reclaim frees, and opens the free superblock with the highest mean erase count
for it (R206). Its units move under R203. -/
def execWearLevelMove (src : Nat) (s : State) : Out :=
  .next (match Tab.get? s.media.sbs src, wornest s with
    | some b, some g =>
      let closed := s.media.sbs.filter fun x => decide (x.2.state = .closed)
      if wearSpread s && decide (b.state = .closed ∧ 64 ≤ s.media.reclaimed ∧ s.media.wlTarget = none)
          && !Tab.has s.media.sources src && closed.all fun x => decide (sbErase s b ≤ sbErase s x.2) then
        let sb := s.media.nextSb
        let s := openSb sb g b.par2 false true s
        let m := s.media
        { s with media := { m with sources := Tab.set m.sources src .wear, wlTarget := some sb, reclaimed := 0 } }
      else s
    | _, _ => s)

/-! ### Page reads (R224, R226 to R229, R198) -/

/-- The levels that read retry tries after the stored one: ascending and wrapping past the highest, as many as the
parameter page reports and at most 15 (R226). -/
def retryOrder (stored top : Nat) : List Nat := (List.range (min top 15)).map fun i => (stored + 1 + i) % (top + 1)

/-- A hard decode converges within 20 iterations, a soft one within 50 (R224). -/
def hardOk (d : Decode) : Bool := decide (d.iters ≤ 20)

/-- Soft decode at the level whose last hard decode left the lowest syndrome weight: from the two shifted reads, then
with a third one on the side that differed more (R226; DESIGN CHOICE, assumption 147: on a tie the minus side). -/
def softOutcome (tried : List (Nat × Decode)) (r : CwRead) : CwOutcome :=
  let level := (tried.foldl (fun (b : Option (Nat × Decode)) x => match b with
    | none => some x
    | some y => if x.2.weight < y.2.weight then some x else some y) none).elim 0 (·.1)
  let third := if r.minus < r.plus then r.softPlus else r.softMinus
  if r.soft ≤ 50 then .soft level r.soft else if third ≤ 50 then .soft level third else .failed

/-- How a codeword comes out: hard decode at the stored level, read retry, soft decode (R226). -/
def decodeCw (stored top : Nat) (r : CwRead) : CwOutcome :=
  let tried := (stored :: retryOrder stored top).zip r.hard
  match tried.findIdx? fun e => hardOk e.2 with
  | none => softOutcome tried r
  | some i =>
    match tried[i]? with
    | none => .failed
    | some e => if i = 0 then .hard e.2.iters else .retry e.1 e.2.iters

/-- Field-book bin of a codeword's outcome (R531). -/
def ldpcBin (c : CwOutcome) : Nat :=
  match c with
  | .hard i => min 19 (i - 1)
  | .retry _ i => min 19 (i - 1)
  | .soft _ i => 20 + min 9 ((i - 1) / 5)
  | .failed => 30

/-- Adds one to a 64-bit LDPC counter of the field book. -/
def bookLdpc (k : Nat) (s : State) : State :=
  { s with book := { s.book with ldpc := Tab.set s.book.ldpc k (satAdd 64 (Tab.getD s.book.ldpc k 0) 1) } }

/-- A codeword was corrected by a retry or by soft decoding, or not at all. -/
def escalated (c : CwOutcome) : Bool :=
  match c with
  | .hard _ => false
  | _ => true

/-- The codeword asks for a refresh of its block (R228). -/
def wantsRefresh (c : CwOutcome) : Bool :=
  match c with
  | .hard i => decide (12 < i)
  | .retry _ i => decide (12 < i)
  | .soft _ _ => true
  | .failed => true

/-- The level that the last success leaves stored (R226): soft decode comes after the retries, which come in their
order. -/
def levelAfter (stored top : Nat) (cs : List CwOutcome) : Nat :=
  let soft := (cs.filterMap fun c => match c with
    | .soft l _ => some l
    | _ => none).getLast?
  let retry := ((retryOrder stored top).filter fun l => cs.any fun c => match c with
    | .retry x _ => decide (x = l)
    | _ => false).getLast?
  (soft.or retry).getD stored

/-- Counts one codeword (R226, R215, R531). -/
def countCw (die : Nat) (s : State) (c : CwOutcome) : State :=
  let s := bookLdpc (ldpcBin c) s
  let m := s.media
  let x := dieOf s die
  let soft := decide (20 ≤ ldpcBin c ∧ ldpcBin c < 30)
  let fail := decide (c = .failed)
  { s with media := { m with
    readRetries := if escalated c then m.readRetries + 1 else m.readRetries
    softDecodes := if soft then m.softDecodes + 1 else m.softDecodes
    ldpcFails := if fail then m.ldpcFails + 1 else m.ldpcFails
    dies := Tab.set m.dies die { x with
      retries := if escalated c then satAdd 32 x.retries 1 else x.retries
      ldpcFails := if fail then satAdd 16 x.ldpcFails 1 else x.ldpcFails } } }

/-- What a page read leaves in its block's record: the read count, the level, a refresh that is due (R226, R228). -/
def noteRead (die blk : Nat) (slc : Bool) (cs : List CwOutcome) (s : State) : State :=
  let k := blockKey die blk
  let b := Tab.getD s.media.blocks k {}
  let top := (dieOf s die).retryLevels
  let level := levelAfter b.level top cs
  let reads := b.reads + 1
  let due := cs.any wantsRefresh || decide ((if slc then 1000000 else 100000) ≤ reads) || (decide (0 < top ∧ top ≤ level))
  let b := { b with reads := reads, level := level, refresh := b.refresh || due }
  { s with media := { s.media with blocks := Tab.set s.media.blocks k b } }

/-- The outcomes of a page's codewords, from the level stored for its block (R226). -/
def pageOutcomes (s : State) (die blk : Nat) (cws : List CwRead) : List CwOutcome :=
  cws.map (decodeCw (Tab.getD s.media.blocks (blockKey die blk) {}).level (dieOf s die).retryLevels)

/-- A page read is complete, its codewords are decoded and its data is decrypted (R226, R502); a unit that
fails goes to parity rebuild (R198). A read that parity rebuild has answered already is abandoned (R227). -/
def execPageReadComplete (die blk : Nat) (nsid unit issued : Nat) (cws : List CwRead) (membersLost : Nat) (xts : LaneCheck)
    (s : State) : Out :=
  .next (
    if s.media.answered.contains (nsid, unit, issued) then
      { s with media := { s.media with answered := s.media.answered.filter (· ≠ (nsid, unit, issued)) } }
    else
      let slc := ((nsOf s nsid).map fun n =>
        let e := entryOf n unit
        if e.kind = .buffered then e.prevSlc else e.slc).getD false
      let cs := pageOutcomes s die blk cws
      let s := channelLanes (die % 32) xts (noteRead die blk slc cs (cs.foldl (countCw die) s))
      if cs.contains .failed then rebuildUnit nsid unit membersLost s else s)

/-- A codeword is not corrected 2 ms after the read's issue: parity rebuild starts at once and answers the read (R227). -/
def execReadRebuildTimeout (_die : Nat) (nsid unit issued membersLost : Nat) (s : State) : Out :=
  .next (
    if s.datum < issued + 200000 ∨ s.media.answered.contains (nsid, unit, issued) = true then s
    else
      let s := { s with media := { s.media with answered := s.media.answered ++ [(nsid, unit, issued)] } }
      rebuildUnit nsid unit membersLost s)

/-- The pass of the media scrub: one in each 7 days of operation (R229). -/
def scrubPassOf (s : State) : Nat := s.opsec / 604800 + 1

/-- The media scrub reads the next page of a closed superblock that it has not yet read in this pass; it applies R226
and R228 and returns no data (R229). -/
def execMediaScrubRead (sb : Nat) (cws : List CwRead) (membersLost : Nat) (s : State) : Out :=
  .next (match Tab.get? s.media.sbs sb with
    | none => s
    | some b =>
      let w := max 1 b.members.length
      let pass := scrubPassOf s
      let p := if b.scrubPass = pass then b.scrubNext else 0
      if b.state ≠ .closed ∨ w * b.nextStripe ≤ p then s
      else
        let m := (b.members[p % w]?).getD (0, 0)
        let cs := pageOutcomes s m.1 m.2 cws
        let s := noteRead m.1 m.2 b.slc cs (cs.foldl (countCw m.1) s)
        let s := modSb sb (fun b => { b with scrubPass := pass, scrubNext := p + 1 }) s
        match b.placed.find? fun x => decide (x.stripe = p / w ∧ x.member = p % w) with
        | some x => match x.what with
          | .unit nsid u => if cs.contains .failed && unitValid s sb b x then rebuildUnit nsid u membersLost s else s
          | .mapPage _ _ => s
        | none => s)

/-! ### Channels (R233 to R238) -/

/-- A channel fails: every die of it is retired at once, a masked fault, and the baseline is computed again (R233, R44).
-/
def failChannel (ch : Nat) (s : State) : State :=
  if s.media.failedChannels.contains ch then s
  else
    let owner := if s.media.adopted.contains ch then altRegion ch else homeRegion ch
    let s := { s with media := { s.media with failedChannels := s.media.failedChannels ++ [ch] } }
    let s := recordMasked { level := 4, cls := 0x12, site := { kind := 7, index := ch },
                            aux0 := 3 * 4096 + (4 * owner + ch % 4), aux1 := 2 } s
    baselineTrigger 1 ((List.range 32).foldl (fun s i => retireDie (32 * ch + i) 7 s) s)

/-- A NAND PHY faults (R233). -/
def execFlashChannelFail (ch : Fin 32) (s : State) : Out := .next (failChannel ch.val s)

/-- The alternate engine adopts a channel (R235): a masked fault when its cause is the home engine's retirement. -/
def adoptChannel (ch : Nat) (s : State) : State :=
  if s.media.adopted.contains ch || s.media.failedChannels.contains ch then s
  else
    let fault := isLit s (homeRegion ch) && unitRetired s (engineSite (homeRegion ch) (ch % 4))
    let s := { s with media := { s.media with adopted := s.media.adopted ++ [ch] } }
    let e : LogEntry := { level := 4, cls := 0x12, site := { kind := 7, index := ch },
                          aux0 := 3 * 4096 + (4 * altRegion ch + ch % 4), aux1 := 0 }
    if fault then recordMasked e s else recordNote e 0 s

/-- The alternate engine adopts a channel whose home engine or home region is out; programs whose read-back check fails
are program failures of the superblocks named (R235, R230). -/
def execChannelAdopt (ch : Fin 32) (badChecks : List Nat) (s : State) : Out :=
  .next (if engineUp s (homeRegion ch.val) ch.val || !engineUp s (altRegion ch.val) ch.val then s
    else
      let s := adoptChannel ch.val s
      badChecks.foldl (fun s sb =>
        match (Tab.get? s.media.sbs sb).bind fun b => b.members.find? fun m => decide (m.1 / 32 = ch.val) with
        | some m => programFail m.1 sb s
        | none => s) s)

/-- A channel returns to its home engine (R238). -/
def returnChannel (ch : Nat) (s : State) : State :=
  if s.media.adopted.contains ch && engineUp s (homeRegion ch) ch then
    recordNote { level := 4, cls := 0x12, site := { kind := 7, index := ch },
                 aux0 := 3 * 4096 + (4 * homeRegion ch + ch % 4), aux1 := 1 } 0
      { s with media := { s.media with adopted := s.media.adopted.filter (· ≠ ch) } }
  else s

/-- A channel returns to its home engine after relight and self-test (R238). -/
def execChannelReturn (ch : Fin 32) (s : State) : Out := .next (returnChannel ch.val s)

/-! ### The programming window (R239 to R242) -/

/-- A temperature in whole °C as a 32-bit field. -/
def tc32 (t : Int) : Nat := (t % 4294967296).toNat

/-- Blocks of a die programmed outside the window are refreshed once it is back (R228, R242). -/
def refreshOutside (die : Nat) (s : State) : State :=
  { s with media := { s.media with blocks := s.media.blocks.map fun b =>
    if b.1 / 65536 = die ∧ b.2.outside = true then (b.1, { b.2 with refresh := true }) else b } }

/-- The reading of a channel's NAND PHY sensor, that of its group of four, in whole °C; a broken sensor reads 116 °C for
its own unit (R239, R469, R484). -/
def phyReading (s : State) (ch : Nat) : Option Int :=
  let x := sensorOf s (48 + ch / 4)
  if x.broken then some 116 else x.reading.map fun t => t.fdiv 4

/-- Ticks to the next sample of a die's temperature, in whole °C (R471, R473). -/
def nandGap (t : Int) : Nat := if nearAny 5 [-25, 95] t then 200000 else 1600000

/-- A due sample of a die's temperature, in whole °C: the die's own, or its NAND PHY sensor's where it cannot report
(R239, R471). Two readings outside −25 to +95 °C stop programming, two within −22 to +92 °C resume it (R240); extremes
are kept (R215, R216, R530). -/
def execNandTempSample (die : Nat) (own : Option Int) (s : State) : Out :=
  .next (match own.or (phyReading s (die / 32)) with
    | none => s
    | some t =>
    let x := dieOf s die
    if x.state ≠ .inService ∨ s.datum < x.nextSample then s
    else
      let bad := decide (t < -25 ∨ 95 < t)
      let good := decide (-22 ≤ t ∧ t ≤ 92)
      let outC := if bad then x.outCount + 1 else 0
      let inC := if good then x.inCount + 1 else 0
      let stop := !x.stopped && decide (2 ≤ outC)
      let go := x.stopped && decide (2 ≤ inC)
      let x' := { x with
        outCount := outC
        inCount := inC
        lastTemp := t
        nextSample := s.datum + nandGap t
        tempMax := some (match x.tempMax with
          | some m => max m t
          | none => t)
        stopped := (x.stopped || stop) && !go }
      let ext := fun (k : Nat) (better : Int → Bool) (m : Tab (Int × Nat × Nat)) =>
        match Tab.get? m k with
        | some (v, _, _) => if better v then Tab.set m k (t, s.opsec, s.pcc) else m
        | none => Tab.set m k (t, s.opsec, s.pcc)
      let m := s.media
      let s := { s with media := { m with
        dies := Tab.set m.dies die x'
        tempExt := ext 3 (fun v => decide (t < v)) (ext 2 (fun v => decide (v < t)) m.tempExt) } }
      let s := bookMin 43 (4 * t) die (bookMax 42 (4 * t) die s)
      let e : LogEntry := { level := 4, cls := 0x32, site := { kind := 8, index := die }, aux0 := tc32 t }
      if stop then judgeDestage (recordNote e 0 (bookCount 17 s))
      else if go then judgeDestage (refreshOutside die (recordNote e 0 s))
      else s)

end Sys2Proof.Machine
end

