-- ==== Sys2Proof/Machine/Book.lean ====
section
/-! DEFINITION. The field book (R526 to R535): what each operating second adds, flushes and their copies, and Field Book
Clear. -/

namespace Sys2Proof.Machine

/-! ### Readings (R470, R484, R530) -/



/-- The valid reading of a sensor: none before its first sample, and none for a broken one (R484). -/
def validReading (s : State) (n : Nat) : Option Int := if (sensorOf s n).broken then none else (sensorOf s n).reading



/-- Sensors of a region: its four block sensors and its fabric sensor (R469, R530). -/
def regionSensors (r : Nat) : List Nat := [4 * r, 4 * r + 1, 4 * r + 2, 4 * r + 3, 32 + r]

/-- The hottest valid sensor of a list, with its reading; the first on a tie. -/
def hottestOf (s : State) (l : List Nat) : Option (Nat × Int) :=
  l.foldl (fun b n =>
    match validReading s n, b with
    | none, _ => b
    | some t, none => some (n, t)
    | some t, some (m, u) => if u < t then some (n, t) else some (m, u)) none

/-- The Tj of a region, 0.25 °C units (R530). -/
def tjOf (s : State) (r : Nat) : Option Int := (hottestOf s (regionSensors r)).map (·.2)

/-- The composite temperature, 0.25 °C units: the hottest valid on-die sensor (R487). -/
def composite (s : State) : Option Int := (hottestOf s (List.range 64)).map (·.2)

/-- A reading in K: rounded down to a whole °C, plus 273 (R487). -/
def kelvin (t : Int) : Int := t.fdiv 4 + 273

/-- Blocks stopped at T2, or a region fabric sensor that stopped its region (R478). -/
def anyStopped (s : State) : Bool := !s.thermal.t2Blocks.isEmpty || s.regions.any fun r => r.2.t2

/-! ### Bins (R531) -/

/-- Bin of a Tj in 0.25 °C units. -/
def tjBin (t : Int) : Nat := min 33 ((t + 160).fdiv 20).toNat

/-- Bin of a pace in 0.1 %. -/
def paceBin (p : Nat) : Nat := min 15 ((p - 600) / 50)

/-- Bin of a VIN conversion in 10 mV. -/
def vinBin (v : Nat) : Nat := min 23 ((v - 600) / 50)

/-- EC_HIST (R215). -/
def ecHist (s : State) : List Nat :=
  let bins := (diesInService s).flatMap fun d =>
    (blocksInService s d.1 d.2).map fun i =>
      min 63 (64 * (Tab.getD s.media.blocks (blockKey d.1 i) {}).ec / max 1 d.2.endurance)
  (List.range 64).map fun k => (bins.filter (· = k)).length

/-! ### Operating seconds (R526, R24) -/

/-- The residency counts of one second (R531). -/
def residency (s : State) : State :=
  let s := (List.range 8).foldl (fun s r =>
    match tjOf s r with
    | some t => bookHist (1216 + 136 * r + 4 * tjBin t) s
    | none => s) s
  let s := (List.range 8).foldl (fun s r =>
    if isLit s r then bookHist (2304 + 64 * r + 4 * paceBin (region s r).pace) s else s) s
  let s := match s.supply.vinMinSecond with
    | some v => bookHist (2816 + 4 * vinBin v) { s with supply := { s.supply with vinMinSecond := none } }
    | none => s
  bookHist (3008 + 4 * s.thermal.level) s

/-- SMART residency of one second (R214, R488). -/
def smartSecond (s : State) : State :=
  let k := ((composite s).map kelvin).getD 0
  let m := s.smart
  let busy := m.busyNow || !s.held.isEmpty
  let mark := decide (s.opsec % 60 = 0)
  { s with smart := { m with
    warnSecs := if 378 ≤ k ∧ k < 388 then m.warnSecs + 1 else m.warnSecs
    critSecs := if 388 ≤ k then m.critSecs + 1 else m.critSecs
    tmt1Secs := if 0 < s.thermal.level then m.tmt1Secs + 1 else m.tmt1Secs
    tmt2Secs := if anyStopped s then m.tmt2Secs + 1 else m.tmt2Secs
    busyMinutes := if mark && busy then m.busyMinutes + 1 else m.busyMinutes
    busyNow := busy && !mark } }

/-- A sample for WA_MEAS when a counter has changed; samples older than 24 h go, but for the newest of them (R215). -/
def waSample (s : State) : State :=
  let m := s.media
  let l := m.waLog
  let now := (s.opsec, m.hostUnits, m.nandUnits)
  let same := match l with
    | (_, a, b) :: _ => decide (a = m.hostUnits ∧ b = m.nandUnits)
    | [] => false
  let l := if same then l else now :: l
  let young := l.takeWhile fun e => decide (s.opsec < e.1 + 86400)
  { s with media := { m with waLog := young ++ (l.drop young.length).take 1 } }

/-- One operating second, 100,000,000 ticks, passes while the device is started and its cores have power: the counts of
R526, a flush after 3,600 of them (R532), a measurement after 24 hours of them (R117). -/
def execOperatingSecond (s : State) : Out :=
  .next (
    if !s.startup.done || s.dump.poweredDown || decide (s.datum < s.secAt + 100000000) then s
    else
      let s := { s with secAt := s.secAt + 100000000
                        dram := { s.dram with passSecs := if s.dram.selfRefresh then s.dram.passSecs else s.dram.passSecs + 1 } }
      let s := waSample (smartSecond (residency { s with opsec := satAdd 40 s.opsec 1 }))
      let s := if s.book.flushOpsec + 3600 ≤ s.opsec && s.book.flushing.isNone then flushDue 3 s else s
      let u := s.holdUp
      if u.dueAt ≤ s.opsec && decide (u.step = .idle) && s.startup.huValid && !u.retry then
        { s with holdUp := { u with step := .waiting s.datum, scheduled := true, dueAt := u.dueAt + 86400 } }
      else s)

/-! ### Flushes (R532, R533) -/

/-- A flush starts: the next generation, with the content of this moment (R533). -/
def startFlush (cause : Nat) (s : State) : State :=
  let b := s.book
  let b := { b with
    flushing := some cause
    again := none
    gen := (b.gen + 1) % 2 ^ 32
    flushCause := cause
    flushOpsec := s.opsec
    flushPcc := s.pcc
    ecHist := ecHist s
    flushWaiters := b.clearers
    clearers := [] }
  { s with book := b, flushImage := some ({ b with flushing := none, flushWaiters := [] }, s.faults) }

/-- A trigger that is due starts a flush, unless one is under way, which it then follows (R532). -/
def execFieldBookFlush (cause : Nat) (s : State) : Out :=
  .next (if s.book.flushing.isNone && decide (s.book.again = some cause) then startFlush cause s else s)

/-- Both slots are written, and the ones due next are erased: both copies hold the generation, and the clears that wait
for it complete (R533, R535). -/
def finishFlush (s : State) : State :=
  match s.book.flushing, s.flushImage with
  | some _, some im =>
    let b := s.book
    let hs := b.flushWaiters
    let k := b.gen % 2
    let s := { s with book := { b with flushing := none, norGen := b.gen, nandGen := b.gen, flushWaiters := [] }
                      bookSlots := [(k, im), (2 + k, im)]
                      flushImage := none }
    hs.foldl (fun s h => completeOk h s) s
  | _, _ => s

/-- The slot writes finish; a trigger merged meanwhile starts one further flush (R532, R533). -/
def execFieldBookFlushComplete (s : State) : Out :=
  .next (
    if s.book.flushing.isNone then s
    else
      let s := finishFlush s
      match s.book.again with
      | some c => startFlush c s
      | none => s)

/-! ### Field Book Clear (R535) -/

/-- The clear itself: everything of R529 to R531 is zeroed but what R535 keeps, and this command is counted. -/
def clearBook (s : State) : State :=
  let b := s.book
  let n := b.clears + 1
  let d := { s.dram with channels := s.dram.channels.map fun c =>
    (c.1, { c.2 with corrected := 0, uncorrectable := 0, misdirected := 0 }) }
  { s with
    dram := d
    presence := { s.presence with sealOpened := false }
    book := { b with
      counters := [(0, 1), (1, 1), (3, 1)]
      extremes := []
      hist := []
      ldpc := []
      holdup := []
      ecHist := []
      clears := n
      clearOpsec := s.opsec
      clearPcc := s.pcc
      clearArea := b.clearArea ++ [(s.opsec, s.pcc, n)] } }

/-- All command dwords are zero. -/
def cdwZero (d : Cdw) : Bool := decide (d = {})

/-- Field Book Clear (R535): it completes once both copies hold the new generation. -/
def execFieldBookClear (h : Sub) (nsid : Nat) (d : Cdw) (s : State) : Out :=
  .next (
    if nsid ≠ 0 ∨ cdwZero d = false then refuse h sField s
    else if !windowOpen s then refuse h (sVendor 0x85) s
    else if (norArea .clearArea).2 / 16 ≤ s.book.clearArea.length then refuse h sField s
    else
      let s := flushDue 4 (clearBook (usePrivileged 3 s))
      { s with book := { s.book with clearers := s.book.clearers ++ [h] } })

end Sys2Proof.Machine
end

