-- ==== Sys2Proof/Machine/Operands.lean ====
section
/-! DEFINITION. The operand forms of Opxus: the view of the task that a core runs, its registers (R277, R312), the
instruction words (R292) and the ways an immediate is read (R302, R306). -/

namespace Sys2Proof.Machine

/-- A core, the index of the task it runs, and both their states. -/
structure View where
  c : Nat
  t : Nat
  task : Task
  core : Core
  deriving DecidableEq, Repr

/-- The view of what core `c` runs; none when it runs nothing, or when its cell has not reached power-good (R57). -/
def running (s : State) (c : CoreId) : Option View :=
  let u := coreOf s c.val
  match u.run with
  | none => none
  | some t =>
    if domainOn s (c.val / 32) (c.val % 32) then
      (taskOf s t).map fun k => { c := c.val, t := t, task := k, core := u }
    else none

/-- Writes the task and the core of a view back. -/
def putView (v : View) (s : State) : State := setCore (setTask s v.t v.task) v.c v.core

/-- Running privilege: firmware while a trap handler runs (R286, R312). -/
def viewFw (v : View) : Bool := v.core.trapped || v.core.fw

/-- Address of the instruction: the handler's own while TRAPPED. -/
def viewPc (v : View) : Word := if v.core.trapped then v.core.hpc else v.task.pc

/-- Register read: w0 is zero; w28 to w31 are banked in a handler (R277, R312). -/
def rd (v : View) (r : Reg) : Word :=
  if r = 0 then 0
  else if h : v.core.trapped ∧ 28 ≤ r.val then v.core.bankRegs[r.val - 28]'(by have := r.isLt; omega)
  else v.task.regs[r]

/-- Register write: w0 discards; w28 to w31 are banked in a handler (R277, R312). -/
def wr (v : View) (r : Reg) (x : Word) : View :=
  if r = 0 then v
  else if h : v.core.trapped ∧ 28 ≤ r.val then
    { v with core := { v.core with
      bankRegs := v.core.bankRegs.set (r.val - 28) x (by have := r.isLt; omega) } }
  else { v with task := { v.task with regs := v.task.regs.set r.val x r.isLt } }

/-! ### Words (R292) -/

/-- Bits [31:22] that all formats share. -/
def encHead (g : Guard) (major : Nat) : Nat := flagBit g.neg 31 + g.p.val * 2 ^ 28 + major * 2 ^ 22

/-- Format G. -/
def encG (g : Guard) (major d a b func : Nat) : Word :=
  BitVec.ofNat 32 (encHead g major + d * 2 ^ 17 + a * 2 ^ 12 + b * 2 ^ 7 + func)

/-- Format I. -/
def encI (g : Guard) (major d a : Nat) (imm : BitVec 12) : Word :=
  BitVec.ofNat 32 (encHead g major + d * 2 ^ 17 + a * 2 ^ 12 + imm.toNat)

/-- Format B. -/
def encB (g : Guard) (major : Nat) (off : BitVec 22) : Word := BitVec.ofNat 32 (encHead g major + off.toNat)

/-- sext(IMM). -/
def sext12 (imm : BitVec 12) : Word := imm.signExtend 32

/-- A memory address wa + sext(IMM) (R302). -/
def addrOf (v : View) (a : Reg) (imm : BitVec 12) : Word := rd v a + sext12 imm

/-- A port number (wa + zext(IMM))[15:0] (R302). -/
def portNo (v : View) (a : Reg) (imm : BitVec 12) : Nat := (rd v a + imm.zeroExtend 32).toNat % 65536

/-- A branch target: the instruction's address + 4 × sext(OFF) (R306). -/
def branchTarget (v : View) (off : BitVec 22) : Word := viewPc v + (off.signExtend 32 <<< 2)

end Sys2Proof.Machine
end

