-- ==== Sys2Proof/Machine/Flags.lean ====
section
/-! DEFINITION. Predicates, conditions and the flags register of Opxus (R299 to R301, R309). -/

namespace Sys2Proof.Machine

/-- A bit of a predicate word replaced. -/
def putBit {w : Nat} (x : BitVec w) (i : Nat) (b : Bool) : BitVec w :=
  if b then x ||| BitVec.ofNat w (2 ^ i) else x &&& ~~~ BitVec.ofNat w (2 ^ i)

/-- Predicate read: p0 is 1; p4 to p7 are banked in a handler (R277, R312). -/
def rdp (v : View) (p : PReg) : Bool :=
  if p = 0 then true
  else if v.core.trapped && decide (4 ≤ p.val) then v.core.bankPreds.getLsbD (p.val - 4)
  else v.task.preds.getLsbD p.val

/-- Predicate write: a write to p0 is ignored (R277). -/
def wrp (v : View) (p : PReg) (b : Bool) : View :=
  if p = 0 then v
  else if v.core.trapped && decide (4 ≤ p.val) then
    { v with core := { v.core with bankPreds := putBit v.core.bankPreds (p.val - 4) b } }
  else { v with task := { v.task with preds := putBit v.task.preds p.val b } }

/-- The guard is true: p[GUARD] exclusive-OR N is 1 (R293). -/
def guardTrue (v : View) (g : Guard) : Bool := rdp v g.p != g.neg

/-- The condition cc on two operands (R299). -/
def condition (cc : Nat) (a b : Word) : Bool :=
  match cc with
  | 0 => a == b
  | 1 => a != b
  | 2 => a.slt b
  | 3 => !a.slt b
  | 4 => a.ult b
  | 5 => !a.ult b
  | 6 => b.slt a
  | 7 => !b.slt a
  | 8 => b.ult a
  | 9 => !b.ult a
  | 10 => (a &&& b) != 0
  | _ => (a &&& b) == 0

/-- The predicate paired with t: its number XOR 1 (R300). -/
def pairOf (t : PReg) : PReg :=
  match t with
  | 0 => 1 | 1 => 0 | 2 => 3 | 3 => 2 | 4 => 5 | 5 => 4 | 6 => 7 | 7 => 6

/-- The write of a predicate pair in a combine mode (R300). -/
def combine (v : View) (mode : Nat) (t : PReg) (c : Bool) : View :=
  let f := pairOf t
  let old := rdp v t
  let oldF := rdp v f
  match mode with
  | 0 => wrp (wrp v t c) f (!c)
  | 1 => wrp (wrp v t (old && c)) f (oldF || !c)
  | _ => wrp (wrp v t (old || c)) f (oldF && !c)

/-- The flags register as it reads (R309). -/
def flagsValue (v : View) : Word :=
  BitVec.ofNat 32 (flagBit (viewFw v) 31 + flagBit v.core.trapped 30
    + (((List.range 7).map fun i => flagBit (rdp v ⟨(i + 1) % 8, by omega⟩) (9 + i)).sum) + 256)

/-- A write of flags: only PRED is written; in a handler bits [15:12] reach the banked predicates (R309, R312). -/
def writeFlags (v : View) (x : Word) : View :=
  (List.range 7).foldl (fun v i => wrp v ⟨(i + 1) % 8, by omega⟩ (x.getLsbD (9 + i))) v

end Sys2Proof.Machine
end

