-- ==== Sys2Proof/Machine/Spaces.lean ====
section
/-! DEFINITION. D-space: what an address of a task maps to (R371, R344, R462 to R464), and the reads and writes that
go through it, with posted stores (R281 to R284) and lost bursts (R255, R269, R271). -/

namespace Sys2Proof.Machine

/-- `n` rounded up to a multiple of `m`. -/
def roundUp (n m : Nat) : Nat := ceilDiv n m * m

/-- The pool of a slice in which D-space address `a` lies: its number and record (R344). -/
def poolAt (s : State) (sl a : Nat) : Option (Nat × Pool) :=
  s.poolTab.find? fun p => decide (p.2.slice = sl ∧ p.2.base ≤ a ∧ a < p.2.base + p.2.count * 2 ^ p.2.log2sz)

/-- The translation entry of slice `sl` that covers `a`, shared or private to task `t` (R462, R463). -/
def stuAt (s : State) (sl t a : Nat) : Option StuEntry :=
  s.stu.find? fun e => decide (e.slice = sl ∧ (e.task = none ∨ e.task = some t) ∧ e.va ≤ a ∧ a < e.va + 4096 * 2 ^ e.size)

/-- The place a translation entry gives an address. -/
def stuPlace (e : StuEntry) (t a : Nat) : Option (Space × Nat × Bool) :=
  if e.scratch then (if a - e.va < 16384 then some (.scratch t, a - e.va, e.write) else none)
  else some (.setU, e.pa + (a - e.va), e.write)

/-- The place that the loader's layout gives an address of a program task (R371). Areas are mapped in whole pages of
4 KiB, the smallest span of R463 (DEDUCED, assumption 9). -/
def layoutPlace (s : State) (t : Nat) (k : Task) (a : Nat) : Option (Space × Nat × Bool) :=
  if 0x1000 ≤ a ∧ a < 0x2000 then k.inv.map fun i => (.invArea i, a - 0x1000, false)
  else if 0x8000 ≤ a ∧ a < 0xC000 then some (.scratch t, a - 0x8000, true)
  else if 0x100000 ≤ a ∧ a < 0x1100000 then
    match Tab.get? s.progs k.slot with
    | some g => if a < 0x100000 + roundUp (privBytes g) 4096 then some (.priv t, a - 0x100000, true) else none
    | none => none
  else if 0x2000000 ≤ a ∧ a < 0x3000000 then
    match k.inv with
    | some i =>
      match Tab.get? s.invs i with
      | some v =>
        if v.inKind = 1 ∧ a < 0x2000000 + roundUp v.inLen 4096 then some (.input i, a - 0x2000000, true) else none
      | none => none
    | none => none
  else if 0x4000000 ≤ a ∧ a < 0x40000000 then
    if a < 0x4000000 + (sliceOf s k.slice).commonMib * 1048576 then some (.common k.slice, a - 0x4000000, true) else none
  else if 0x40000000 ≤ a then (poolAt s k.slice a).map fun _ => (.pool k.slice, a, true)
  else none

/-- The place of a D-space address of a task, and whether it may be written; none is a translation fault (R464). -/
def place (s : State) (t : Nat) (k : Task) (a : Nat) : Option (Space × Nat × Bool) :=
  match (if k.fw then none else layoutPlace s t k a) with
  | some p => some p
  | none => (stuAt s k.slice t a).bind fun e => stuPlace e t a

/-- The memory that a space names. -/
def spaceMem (s : State) : Space → Memory
  | .scratch t => ((taskOf s t).map (·.scratch)).getD []
  | .priv t => ((taskOf s t).map (·.priv)).getD []
  | .invArea i => ((Tab.get? s.invs i).map (·.area)).getD []
  | .input i => ((Tab.get? s.invs i).map (·.input)).getD []
  | .common n => (sliceOf s n).common
  | .pool n => (sliceOf s n).pools
  | .setU => s.setU

/-- Applies `f` to the memory that a space names. -/
def modSpace (sp : Space) (f : Memory → Memory) (s : State) : State :=
  match sp with
  | .scratch t => modTask t (fun k => { k with scratch := f k.scratch }) s
  | .priv t => modTask t (fun k => { k with priv := f k.priv }) s
  | .invArea i => { s with invs := Tab.modify s.invs i fun v => { v with area := f v.area } }
  | .input i => { s with invs := Tab.modify s.invs i fun v => { v with input := f v.input } }
  | .common n => modSlice n (fun v => { v with common := f v.common }) s
  | .pool n => modSlice n (fun v => { v with pools := f v.pools }) s
  | .setU => { s with setU := f s.setU }

/-- A place lies in the lines of a lost channel (R274). -/
def memberLost (s : State) (sp : Space) (off : Nat) : Bool :=
  s.dram.lostMembers.any fun x => decide (x.1 = sp ∧ off / max 1 x.2.2.1 % max 1 x.2.1 = x.2.2.2)

/-- The 64-byte burst of a place is lost (R269, R271, R274). -/
def burstLost (s : State) (sp : Space) (off : Nat) : Bool :=
  (s.dram.badCompute.any fun e => decide (e.2 = (sp, off / 64))) || memberLost s sp off

/-- Writes bytes at a place. A burst that is written whole is no longer lost; a partial write of a lost burst is not
made (R255, R271). Answers whether an error was met. -/
def writePlace (sp : Space) (off : Nat) (bs : List Byte) (s : State) : State × Bool :=
  let covered := fun b : Nat => decide (off ≤ b * 64 ∧ b * 64 + 64 ≤ off + bs.length)
  let keep := s.dram.badCompute.filter fun e => !(decide (e.2.1 = sp) && covered e.2.2)
  let s := { s with dram := { s.dram with badCompute := keep } }
  let ok := (indexed bs).filter fun e => !burstLost s sp (off + e.1)
  (modSpace sp (fun m => ok.foldl (fun m e => m.write (off + e.1) e.2) m) s, decide (ok.length ≠ bs.length))

/-! ### Ranges of D-space (R374) -/

/-- Addresses of a range at which translation must hold: its first byte of each page, and its last byte. -/
def rangeProbes (a n : Nat) : List Nat :=
  if n = 0 then [] else (List.range (n / 4096 + 2)).map fun i => min (a - a % 4096 + i * 4096) (a + n - 1) |> max a

/-- Every byte of a range translates, for writing when `w` (R374, R464). -/
def rangeOk (s : State) (t : Nat) (k : Task) (a n : Nat) (w : Bool) : Bool :=
  decide (a + n ≤ 2 ^ 32) && (rangeProbes a n).all fun x =>
    match place s t k x with
    | some p => p.2.2 || !w
    | none => false

/-- The byte at a D-space address; zero where nothing is mapped. -/
def peek (s : State) (t : Nat) (k : Task) (a : Nat) : Byte :=
  match place s t k a with
  | some p => (spaceMem s p.1).read p.2.1
  | none => 0

/-- True when the byte lies in a lost burst. -/
def peekLost (s : State) (t : Nat) (k : Task) (a : Nat) : Bool :=
  match place s t k a with
  | some p => burstLost s p.1 p.2.1
  | none => false

/-- `n` bytes of a range. -/
def peekBytes (s : State) (t : Nat) (k : Task) (a n : Nat) : List Byte :=
  (List.range n).map fun i => peek s t k (a + i)

/-- True when some byte of the range lies in a lost burst. -/
def rangeLost (s : State) (t : Nat) (k : Task) (a n : Nat) : Bool :=
  (List.range n).any fun i => peekLost s t k (a + i)

/-- Writes bytes to a range that translates, a page at a time; answers whether a lost burst was met. -/
def pokePages (t : Nat) (k : Task) : Nat → Nat → List Byte → State → State × Bool
  | 0, _, _, s => (s, false)
  | fuel + 1, a, bs, s =>
    if bs.isEmpty then (s, false)
    else
      let n := 4096 - a % 4096
      let r := match place s t k a with
        | some p => writePlace p.1 p.2.1 (bs.take n) s
        | none => (s, true)
      let r2 := pokePages t k fuel (a + n) (bs.drop n) r.1
      (r2.1, r.2 || r2.2)

/-- Writes bytes from a D-space address on. -/
def pokeBytes (t : Nat) (k : Task) (a : Nat) (bs : List Byte) (s : State) : State × Bool :=
  pokePages t k (bs.length / 4096 + 2) a bs s

/-! ### Loads and posted stores (R281, R283) -/

/-- The newest posted store that holds the byte at `a`. -/
def bufferedByte (q : List (Word × List Byte)) (a : Nat) : Option Byte :=
  q.reverse.findSome? fun e => if e.1.toNat ≤ a then e.2[a - e.1.toNat]? else none

/-- The bytes that a load sees: the task's own posted stores come first (R283). -/
def loadBytes (s : State) (v : View) (a n : Nat) : List Byte :=
  (List.range n).map fun i => (bufferedByte v.core.stores (a + i)).getD (peek s v.t v.task (a + i))

/-- Performs one store of task `t`; a lost burst is an error the task meets later (R311). -/
def performStore (t : Nat) (e : Word × List Byte) (s : State) : State :=
  match taskOf s t with
  | none => s
  | some k =>
    let r := pokeBytes t k e.1.toNat e.2 s
    if r.2 then modTask t (fun k => { k with storeError := k.storeError.or (some e.1) }) r.1 else r.1

/-- Performs the oldest posted store of a core (R283). -/
def performOldest (c : Nat) (s : State) : State :=
  let u := coreOf s c
  match u.run, u.stores with
  | some t, e :: rest => performStore t e (setCore s c { u with stores := rest })
  | _, _ => s

/-- Performs every posted store of a core, in program order (R283, R284). -/
def drainStores (c : Nat) (s : State) : State :=
  let u := coreOf s c
  match u.run with
  | some t => u.stores.foldl (fun s e => performStore t e s) (setCore s c { u with stores := [] })
  | none => s

/-- Enters a store in the 8-entry store buffer; when it is full the oldest is performed first (R283). -/
def postStore (c : Nat) (a : Word) (bs : List Byte) (s : State) : State :=
  let s := if 8 ≤ (coreOf s c).stores.length then performOldest c s else s
  let u := coreOf s c
  setCore s c { u with stores := u.stores ++ [(a, bs)] }

end Sys2Proof.Machine
end

