-- ==== Sys2Proof/Machine/TaskOps.lean ====
section
/-! DEFINITION. What the device does with tasks: creation and start state (R317 to R323, R365), the end with and
without release (R331 to R336), buffer references (R347 to R350), the completion of an invocation (R368), restart
(R337 to R339) and the handling of a core's fault (R15). -/

namespace Sys2Proof.Machine

/-! ### Buffer references (R347 to R350) -/

/-- The buffer that starts at `a` in a pool of the slice: pool number, pool and buffer index (R344). -/
def bufferAt (s : State) (sl a : Nat) : Option (Nat × Pool × Nat) :=
  match poolAt s sl a with
  | some (n, p) =>
    if (a - p.base) % 2 ^ p.log2sz = 0 then some (n, p, (a - p.base) / 2 ^ p.log2sz) else none
  | none => none

/-- Lowers the reference count of buffer `i` of pool `n` by `k`; at zero the buffer is free (R347). -/
def lowerRef (n i k : Nat) (s : State) : State :=
  { s with poolTab := Tab.modify s.poolTab n fun p =>
      match Tab.get? p.used i with
      | some (r, g) => if r ≤ k then { p with used := Tab.erase p.used i }
                       else { p with used := Tab.set p.used i (r - k, g) }
      | none => p }

/-- Raises the reference count of buffer `i` of pool `n` by one (R348). -/
def raiseRef (n i : Nat) (s : State) : State :=
  { s with poolTab := Tab.modify s.poolTab n fun p =>
      match Tab.get? p.used i with
      | some (r, g) => { p with used := Tab.set p.used i (r + 1, g) }
      | none => p }

/-- Lowers the count of the buffer at an address of a slice. -/
def lowerAt (sl a k : Nat) (s : State) : State :=
  match bufferAt s sl a with
  | some (n, _, i) => lowerRef n i k s
  | none => s

/-- Counts a refused double free, in its pool and in log 0xC6 (R347). -/
def countDfree (n sl : Nat) (s : State) : State :=
  modSlice sl (fun x => { x with dfree := satAdd 32 x.dfree 1 })
    { s with poolTab := Tab.modify s.poolTab n fun p => { p with dfree := satAdd 32 p.dfree 1 } }

/-- Changes the net references of a holding list for the buffer at `a`; an entry at zero leaves the list (R350). -/
def holdChange (l : List (Nat × Nat)) (a : Nat) (up : Bool) : List (Nat × Nat) :=
  (l.map fun e => if e.1 = a then (e.1, if up then e.2 + 1 else e.2 - 1) else e).filter fun e => decide (e.2 ≠ 0)

/-- A free that is checked against the pools (R347): status and state. -/
def freeBuffer (sl a : Nat) (s : State) : Nat × State :=
  match bufferAt s sl a with
  | none => (0x02, s)
  | some (n, p, i) => if Tab.has p.used i then (0x00, lowerRef n i 1 s) else (0x03, countDfree n sl s)

/-- A share that is checked against the pools (R348). -/
def shareBuffer (sl a : Nat) (s : State) : Nat × State :=
  match bufferAt s sl a with
  | none => (0x02, s)
  | some (n, p, i) =>
    match Tab.get? p.used i with
    | none => (0x03, s)
    | some (r, _) => if r = 65535 then (0x04, s) else (0x00, raiseRef n i s)

/-- Unwinds a holding list (R350). -/
def unwind (k : Task) (s : State) : State := k.holding.foldl (fun s e => lowerAt k.slice e.1 e.2 s) s

/-! ### Creation (R317, R321, R322, R279, R365) -/

/-- Program tasks of a slice; a Scan in progress counts as one (R321; DEDUCED, assumption 27). -/
def programTasks (s : State) (sl : Nat) : Nat :=
  (s.tasks.filter fun p => !p.2.fw && decide (p.2.slice = sl)).length + (s.scans.filter fun q => decide (q.slice = sl)).length

/-- A task is available to a program of the slice (R317). -/
def taskAvailable (s : State) (sl : Nat) : Bool :=
  decide (programTasks s sl < 4096) && decide ((s.tasks.filter fun p => !p.2.fw).length + s.scans.length < 15872)
    && decide (s.tasks.length + s.scans.length < 16384)

/-- A free task index. Which one the spec leaves open: a free value chooses (assumption 10). -/
def freeTaskIndex (s : State) : Nat :=
  let i := freeNat s % 16384
  ((Tab.lowestFree s.tasks i (16384 - i)).or (Tab.lowestFree s.tasks 0 i)).getD 0

/-- Registers of a start state: w1 on from the parameters, the rest zero (R279, R365). -/
def startRegs (args : List Word) : Vector Word 32 := Vector.ofFn fun i : Fin 32 => if i.val = 0 then 0 else args.getD (i.val - 1) 0

/-- Listed bytes of a data section: zeros stay unlisted. -/
def memOf (bs : List Byte) : Memory := Memory.writeBytes [] 0 bs

/-- A task brought to its start state (R279, R365, R371). -/
def startState (s : State) (k : Task) : Task :=
  let g := Tab.get? s.progs k.slot
  let low := 0x100000 + (g.map fun g => g.data.length + g.zeroLen).getD 0
  let top := 0x100000 + (g.map privBytes).getD 0
  { k with
    regs := startRegs k.args
    preds := 1
    pc := BitVec.ofNat 32 ((g.map (·.entry)).getD 0)
    ds := if k.fw then 0 else BitVec.ofNat 32 top
    dlim := if k.fw then 0 else BitVec.ofNat 32 low
    rstack := []
    steps := if k.fw then 0xFFFFFFFF#32 else BitVec.ofNat 32 k.budget
    exhausted := false
    ports := {}
    scratch := []
    priv := (g.map fun g => memOf g.data).getD []
    mask := 0
    maskAll := false
    waitReg := none
    sigevs := 0
    spawns := 0
    holding := []
    effects := []
    keyOps := 0
    ctx := none
    newKeys := []
    storeError := none }

/-- A task that has not started: what its creator gives it (R322). -/
def blankTask (sl slot : Nat) (fw : Bool) (r : Nat) (flow : Option (Nat × Nat)) (budget : Nat) (mask : Word)
    (args : List Word) (inv : Option Nat) (root : Bool) (creator gen now : Nat) (deadline : Option Nat) : Task :=
  { gen := gen, phase := if mask = 0 then .ready else .waiting, slice := sl, slot := slot, fw := fw,
    regs := Vector.replicate 32 0, preds := 1, pc := 0, ds := 0, dlim := 0, rstack := [], steps := 0,
    exhausted := false, ports := {}, tickets := [], scratch := [], priv := [], flow := flow, budget := budget,
    initMask := mask, args := args, mask := mask, maskAll := false, waitReg := none, flags := 0, delivered := 0,
    deadline := deadline, region := r, lastCore := none, creatorBlock := creator, readySince := now, runSince := 0,
    restarts := 0, fences := 0, sigevs := 0, sigevLog := [], spawns := 0, spawnLog := [], holding := [],
    effects := [], endStatus := 0, inv := inv, root := root, storeError := none, keyOps := 0, ctx := none,
    newKeys := [] }

/-- The flow record of a flow of a slice (R332). -/
def flowOf (s : State) (f sl : Nat) : Flow := (Tab.get? s.flows f).getD { slice := sl, issue := 0, turn := 0 }

/-- Joins a flow: the task takes ISSUE, which rises by one (R332). -/
def joinFlow (f sl : Nat) (s : State) : Nat × State :=
  let w := flowOf s f sl
  (w.issue.toNat, { s with flows := Tab.set s.flows f { w with issue := w.issue + 1 } })

/-- Creates a task in region `r` (R322); answers its index. -/
def createTask (sl slot : Nat) (fw : Bool) (r : Nat) (flow : Option Nat) (budget : Nat) (mask : Word)
    (args : List Word) (inv : Option Nat) (root : Bool) (creator : Nat) (deadline : Option Nat) (s : State) :
    Nat × State :=
  let i := freeTaskIndex s
  let s := drew 1 s
  let (seq, s) := match flow with
    | some f => joinFlow f sl s
    | none => (0, s)
  let gen := Tab.getD s.gens i 0
  let k := blankTask sl slot fw r (flow.map fun f => (f, seq)) budget mask args inv root creator gen s.datum deadline
  let k := { startState s k with mask := mask }
  (i, setTask s i k)

/-! ### Leaving a core -/

/-- The task leaves its core, with its posted stores performed and its on-chip return addresses in its spill area (R291,
R308); the core is idle from now on. -/
def leaveCore (t : Nat) (s : State) : State :=
  match coreOfTask s t with
  | none => s
  | some c =>
    let s := drainStores c s
    let u := coreOf s c
    modTask t (fun k => { k with lastCore := some c, rstack := u.rchip ++ k.rstack })
      (setCore s c { u with run := none, idleSince := s.datum, trapped := false, stores := [], rchip := [] })

/-- Closes the digest context that a task holds; a key that its FINAL has written no longer makes it READY (R427). -/
def dropContext (t : Nat) (s : State) : State :=
  { s with
    contexts := s.contexts.filter fun c => decide (c.2.owner ≠ .task t)
    keys := s.keys.map fun k => if k.2.waitTask.any (fun w => decide (w.1 = t)) then (k.1, { k.2 with waitTask := none }) else k }

/-- Erases key slots: content goes, the generation rises, the wrapped copy is invalid (R445, R448). -/
def eraseKey (i : Nat) (s : State) : State :=
  let k := Tab.getD s.keys i {}
  { s with keys := Tab.set s.keys i { gen := k.gen + 1, stale := true } }

/-- Marks the busy operations of a task so that their results are discarded, and frees the others (R374). -/
def discardTickets (k : Task) : Tab Ticket :=
  (k.tickets.filter fun e => decide (e.2.state = .busy)).map fun e => (e.1, { e.2 with discard := true })

/-! ### Completion of an invocation (R335, R368, R385, R386) -/

/-- A result record's bytes (R386). -/
def recordBytes (kind endst : Nat) (bufs : List Nat) (data bitmap : List Byte) (now glints : Nat) (trunc : Bool) :
    List Byte :=
  let list := bufs.flatMap (toLe 4)
  let head := layout 64 [(0, [1, 0]), (2, toLe 1 kind), (3, toLe 1 endst), (4, toLe 4 bufs.length),
    (8, toLe 4 data.length), (12, toLe 4 bitmap.length), (16, toLe 8 now), (24, toLe 8 glints),
    (32, toLe 1 (flagBit trunc 0))]
  head ++ list ++ zeros ((8 - list.length % 8) % 8) ++ data ++ bitmap

/-- Writes a result record and makes it readable. -/
def fillRecord (handle : Nat) (bytes : List Byte) (s : State) : State :=
  { s with results := Tab.modify s.results (handle % 65536) fun r => { r with ready := true, bytes := bytes } }

/-- Frees a result record; its memory returns to its slice (R385). -/
def freeRecord (i : Nat) (s : State) : State :=
  match Tab.get? s.results i with
  | none => s
  | some r => credit r.slice r.mib { s with results := Tab.erase s.results i,
                                            resultGens := Tab.set s.resultGens i ((r.gen + 1) % 65536) }

/-- The index and handle of a free result record: which index the spec leaves open (assumption 10). -/
def newHandle (s : State) : Nat :=
  let i := freeNat s % 65536
  let j := ((Tab.lowestFree s.results i (65536 - i)).or (Tab.lowestFree s.results 0 i)).getD 0
  Tab.getD s.resultGens j 0 * 65536 + j

/-- A result record is free, and the slice's DRAM holds it (R385, R439). -/
def recordRoom (s : State) (sl mib : Nat) : Bool := decide (s.results.length < 65536) && dramRoom s sl mib

/-- Reserves a result record of `mib` for a slice (R385). -/
def reserveRecord (handle sl mib : Nat) (s : State) : State :=
  let r : ResultRecord := { gen := handle / 65536, slice := sl, mib := mib, ready := false, bytes := [] }
  drew 1 { s with results := Tab.set s.results (handle % 65536) r }

/-- Completion of an invocation by its root's end status (R368, R369); 0xFF posts none. -/
def completeInvocation (i : Nat) (s : State) : State :=
  match Tab.get? s.invs i with
  | none => s
  | some v =>
    let e := v.rootEnd.getD 0
    let st := match (if e < 0x40 then v.failStatus else none) with
      | some (t, c) => ({ sct := t, sc := c } : Status)
      | none => if e < 0x80 then sOk else if e = 0x84 then sVendor 0x84 else if e = 0xFE then sSqDeleted else sVendor 0x83
    let s := fillRecord v.handle (recordBytes 1 e v.handOuts v.results [] s.datum 0 false) s
    let s := credit v.slice (v.stagedMib + v.inputMib) { s with invs := Tab.erase s.invs i }
    let s := if st = sVendor 0x83 then modSlice v.slice (fun x => { x with progFaults := satAdd 32 x.progFaults 1 }) s
             else if st = sVendor 0x84 then modSlice v.slice (fun x => { x with budgets := satAdd 32 x.budgets 1 }) s
             else s
    if e = 0xFF then s else completeAt v.h st v.handle (e + 256 * min 255 v.failures) [] v.failAt.1 v.failAt.2 s

/-! ### Freeing a task (R319, R323, R332, R335, R359, R321) -/

/-- The slice of a start that waits. -/
def waitingSlice (w : WaitingStart) : Nat :=
  match w with
  | .invoke x => x.inv.slice
  | .scan q _ => q.slice

/-- A waiting Invoke names the slot. -/
def waitsForSlot (slot : Nat) (w : WaitingStart) : Bool :=
  match w with
  | .invoke x => decide (x.inv.slot = slot)
  | .scan _ _ => false

/-- The flow that a waiting start joins. -/
def waitingFlow (w : WaitingStart) : Option Nat :=
  match w with
  | .invoke x => x.flowNo
  | .scan _ f => f

/-- A flow is free or bound to the slice (R332). -/
def flowFree (s : State) (f : Option Nat) (sl : Nat) : Bool :=
  match f.bind (Tab.get? s.flows) with
  | some w => decide (w.slice = sl)
  | none => true

/-- Frees a closing program slot that no task uses any more (R359). -/
def freeSlotIfDone (slot : Nat) (s : State) : State :=
  match Tab.get? s.progs slot with
  | some g =>
    if g.closing && !(s.tasks.any fun p => decide (p.2.slot = slot)) && !(s.waitingInvokes.any (waitsForSlot slot)) then
      credit g.slice (mibOf (g.code.length + g.data.length)) { s with progs := Tab.erase s.progs slot }
    else s
  | none => s

/-- A flow that holds no task is unbound (R332). -/
def unbindIfEmpty (f : Nat) (s : State) : State :=
  if s.tasks.any (fun p => decide (p.2.flow.map (·.1) = some f)) || s.scans.any (fun q => decide (q.flow.map (·.1) = some f))
  then s else { s with flows := Tab.erase s.flows f }

/-- The region for an invoked task without LBA input: the lit region with the most idle cores, lowest on a tie (R322). -/
def idleCores (s : State) (r : Nat) : Nat :=
  ((List.range 32).filter fun i => decide ((coreOf s (32 * r + i)).run = none) && coreUsable s (32 * r + i)).length

/-- The lit region with the most idle cores (R322). -/
def idlestRegion (s : State) : Nat :=
  (litRegions s).foldl (fun b r => if idleCores s b < idleCores s r then r else b) ((litRegions s).headD 0)

/-- Starts an Invoke or a Scan that waited: its task is created, and it joins its flow (R321, R322, R332). -/
def startOne (w : WaitingStart) (s : State) : State :=
  match w with
  | .invoke w =>
    (createTask w.inv.slice w.inv.slot false ((w.home.map (serving s)).getD (idlestRegion s)) w.flowNo w.budget w.mask
      w.args (some (w.inv.handle % 65536)) true 0 none
      { s with invs := Tab.set s.invs (w.inv.handle % 65536) w.inv }).2
  | .scan q none => { s with scans := s.scans ++ [q] }
  | .scan q (some f) =>
    let r := joinFlow f q.slice s
    { r.2 with scans := r.2.scans ++ [{ q with flow := some (f, r.1) }] }

/-- Starts the waiting Invokes and Scans whose slice has a task available, oldest first within a slice (R321). -/
def startWaiting : List WaitingStart → State → State
  | [], s => s
  | w :: rest, s =>
    let older := s.waitingInvokes.any fun x => decide (waitingSlice x = waitingSlice w)
    if !older && taskAvailable s (waitingSlice w) && flowFree s (waitingFlow w) (waitingSlice w) then
      startWaiting rest (startOne w s)
    else startWaiting rest { s with waitingInvokes := s.waitingInvokes ++ [w] }

/-- Gives waiting Invokes and Scans their tasks (R321). -/
def pumpInvokes (s : State) : State := startWaiting s.waitingInvokes { s with waitingInvokes := [] }

/-- A task frees its index: its flow's turn passes, its invocation completes once its family is done, its slot and
flow are freed when they are empty, and waiting Invokes may start. -/
def freeTask (t : Nat) (s : State) : State :=
  match taskOf s t with
  | none => s
  | some k =>
    let s := { s with tasks := Tab.erase s.tasks t, gens := Tab.set s.gens t ((k.gen + 1) % 32768),
                      stu := s.stu.filter fun e => decide (e.task ≠ some t) }
    let s := match k.flow with
      | some (f, _) =>
        unbindIfEmpty f { s with flows := Tab.modify s.flows f fun w => { w with turn := w.turn + 1 } }
      | none => s
    let s := match k.inv with
      | some i =>
        let s := { s with invs := Tab.modify s.invs i fun v =>
          { v with failures := if 0x40 ≤ k.endStatus then v.failures + 1 else v.failures,
                   rootEnd := if k.root then some k.endStatus else v.rootEnd } }
        if s.tasks.any fun p => decide (p.2.inv = some i) then s else completeInvocation i s
      | none => s
    pumpInvokes (freeSlotIfDone k.slot s)

/-- It is the task's turn: it is in no flow, or its sequence number equals TURN (R333). -/
def turnHere (s : State) (k : Task) : Bool :=
  match k.flow with
  | none => true
  | some (f, n) => decide ((flowOf s f k.slice).turn.toNat = n)

/-- Tasks that ended without release pass their turns at once (R333). -/
def passTurns : Nat → State → State
  | 0, s => s
  | n + 1, s =>
    match s.tasks.find? fun p => decide (p.2.phase = .ended ∧ 0x40 ≤ p.2.endStatus) && turnHere s p.2 with
    | some p => passTurns n (freeTask p.1 s)
    | none => s

/-! ### Ending (R331) -/

/-- Ends a task with a status: its core frees, its digest context closes; without release its holding list unwinds,
its effects go, and keys it allocated are erased (R331, R350, R427, R432). -/
def endTask (t st : Nat) (s : State) : State :=
  let s := leaveCore t s
  match taskOf s t with
  | none => s
  | some k =>
    let s := dropContext t s
    let s := setTask s t { k with phase := .ended, endStatus := st, ctx := none,
                                  tickets := if st < 0x40 then k.tickets else discardTickets k }
    if st < 0x40 then s
    else
      let s := unwind k s
      let s := k.newKeys.foldl (fun s i => eraseKey i s) s
      let s := modTask t (fun k => { k with holding := [], effects := [], newKeys := [] }) s
      passTurns s.tasks.length s

/-! ### Restart (R337 to R339) -/

/-- A restart re-creates the task in its start state; what other parties have seen is kept for replay (R337, R338). -/
def restartTask (t : Nat) (s : State) : State :=
  let s := leaveCore t s
  match taskOf s t with
  | none => s
  | some k =>
    let s := dropContext t (unwind k s)
    let s := k.newKeys.foldl (fun s i => eraseKey i s) s
    let k' := startState s k
    setTask s t { k' with phase := .ready, readySince := s.datum, flags := k.delivered,
                          restarts := satAdd 8 k.restarts 1, tickets := discardTickets k }

/-- A core is fenced under a task: it is restarted, unless its cores have been fenced three times (R15, R339). -/
def fencedRestart (t : Nat) (s : State) : State :=
  match taskOf s t with
  | none => s
  | some k =>
    if 2 ≤ k.fences then endTask t 0x83 s
    else restartTask t (modTask t (fun k => { k with fences := k.fences + 1 }) s)

/-- Fencing the core would end its task, so that the fault is detected and not masked (R339). -/
def fenceEnds (s : State) (c : Nat) : Bool :=
  match (coreOf s c).run with
  | some t => ((taskOf s t).map fun k => decide (2 ≤ k.fences)).getD false
  | none => false

/-- Records a fault of a core's cell: masked by the restart, or detected when the restart is refused (R339, R505). -/
def recordCell (e : LogEntry) (c : Nat) (s : State) : State :=
  if fenceEnds s c then recordDetected e s else recordMasked e s

/-- Fences a core: it receives no grant, its task runs again elsewhere, and the unit is retired until it passes its
self-test (R15, R508). -/
def fenceCore (c : Nat) (restorable : Bool) (s : State) : State :=
  let s := match (coreOf s c).run with
    | some t => fencedRestart t s
    | none => s
  retireUnit (coreSite c) restorable (setCore s c { coreOf s c with fenced := true })

/-- A fault of a core's cell that firmware's own trap or a double trap shows (R313): masked, with the core fenced. The
spec names no CLASS for it: the class is a free value (assumption 11). -/
def cellFault (c : Nat) (s : State) : State :=
  let cls := freeNat s % 64
  fenceCore c true (recordCell { level := 0, cls := cls, site := coreSite c } c (drew 1 s))

end Sys2Proof.Machine
end

