-- ==== Sys2Proof/Machine/Sched.lean ====
section
/-! DEFINITION. The region schedulers: dispatch, suspension and migration of tasks (R326 to R330), and the alarm of a
task (R31). -/

namespace Sys2Proof.Machine

/-! ### Waking cells (R57) -/

/-- Core cells of a region that a dispatch has woken and that are not yet at power-good; the region has 4 places for them,
separate from those of R58 (R57). -/
def wakingCells (s : State) (r : Nat) : Nat :=
  ((List.range 32).filter fun i => match domainState s r i with
    | .poweringUp _ wake => wake
    | _ => false).length

/-! ### Digest contexts that move with their tasks (R436) -/

/-- The digest engine of a region (R521). -/
def digestSite (r : Nat) : Site := { kind := 6, index := 2 * r + 1 }

/-- A free context slot of region `r`, lowest first (R424); a retired engine has none (R508). Key: region × 8 + slot. -/
def freeContext (s : State) (r : Nat) : Option Nat :=
  if unitRetired s (digestSite r) then none
  else ((List.range 8).map fun i => 8 * r + i).find? fun k => !Tab.has s.contexts k

/-- Key under which the saved context of a migrating task waits for a place (R436). -/
def savedKey (t : Nat) : Nat := 64 + t

/-- The context of a task moves to region `r`, or is saved until one frees there (R436). -/
def moveContext (t r : Nat) (s : State) : State :=
  match s.contexts.find? fun c => decide (c.2.owner = .task t) with
  | none => s
  | some (k, x) =>
    let s := { s with contexts := Tab.erase s.contexts k }
    match freeContext s r with
    | some j =>
      modTask t (fun k => { k with ctx := some (r, j % 8) }) { s with contexts := Tab.set s.contexts j x }
    | none => { s with contexts := Tab.set s.contexts (savedKey t) x }

/-- A task that holds a context can run only where it has one (R436). -/
def contextReady (s : State) (t r : Nat) : Bool :=
  !Tab.has s.contexts (savedKey t) || (freeContext s r).isSome

/-! ### Dispatch (R327) -/

/-- Cores of region `r` that are idle and may be given a task. -/
def idleCoreList (s : State) (r : Nat) : List Nat :=
  ((List.range 32).map fun i => 32 * r + i).filter fun c => decide ((coreOf s c).run = none) && coreUsable s c

/-- A powered core before a powered-off one, lowest number first; a powered-off one only while a waking place is free
(R57, R327). -/
def pickCore (s : State) (r : Nat) (l : List Nat) : Option Nat :=
  match l.find? fun c => domainOn s r (c % 32) with
  | some c => some c
  | none => if wakingCells s r < 4 then l.find? fun c => decide (domainState s r (c % 32) = .off) else none

/-- The core for a task: the one that last ran it, one of the same block, one elsewhere in the region (R327). -/
def coreFor (s : State) (r : Nat) (k : Task) : Option Nat :=
  let idle := idleCoreList s r
  let block := match k.lastCore with
    | some c => c / 8
    | none => 4 * r + k.creatorBlock % 4
  let last := idle.filter fun c => decide (k.lastCore = some c)
  let same := idle.filter fun c => decide (c / 8 = block)
  (pickCore s r last).or ((pickCore s r same).or (pickCore s r idle))

/-- Ready tasks of region `r`. -/
def readyTasks (s : State) (r : Nat) : List (Nat × Task) :=
  s.tasks.filter fun p => decide (p.2.phase = .ready ∧ p.2.region = r) && contextReady s p.1 r

/-- The entry of a list with the least key, the first on a tie. -/
def leastBy {α : Type} (key : α → Nat) (l : List α) : Option α :=
  l.foldl (fun b x => match b with
    | none => some x
    | some y => if key x < key y then some x else some y) none

/-- Service that a slice has had, of the counts `served`, per unit of its weight, in millionths. The order that gives each
slice its share of R455 is the model's own (DESIGN CHOICE, assumption 13). -/
def servedRate (s : State) (served : Tab Nat) (sl : Nat) : Nat := Tab.getD served sl 0 * 1000000 / max 1 (weightOf s sl)

/-- Counts one best-effort dispatch of region `r` for a slice. -/
def countDispatch (r sl : Nat) (s : State) : State :=
  let a := Tab.getD s.dispatched r []
  { s with dispatched := Tab.set s.dispatched r (Tab.set a sl (Tab.getD a sl 0 + 1)) }

/-- The task that the scheduler of region `r` chooses (R327). -/
def chooseTask (s : State) (r : Nat) : Option (Nat × Task) :=
  let l := readyTasks s r
  match leastBy (fun p : Nat × Task => p.2.deadline.getD 0) (l.filter fun p => p.2.fw && p.2.deadline.isSome) with
  | some p => some p
  | none =>
    match leastBy (fun p : Nat × Task => servedRate s (Tab.getD s.dispatched r []) p.2.slice) l with
    | none => none
    | some q => leastBy (fun p : Nat × Task => p.2.readySince) (l.filter fun p => decide (p.2.slice = q.2.slice))

/-- A task takes a core: a wait that was satisfied completes (R307, R325), a powered-off core wakes (R57). -/
def runOn (t c : Nat) (s : State) : State :=
  match taskOf s t with
  | none => s
  | some k =>
    let r := c / 32
    let got := k.flags &&& k.mask
    let k := match k.waitReg with
      | some d => { k with regs := if d = 0 then k.regs else k.regs.set d.val got d.isLt,
                           flags := k.flags &&& ~~~ k.mask }
      | none => k
    let s := setTask s t { k with phase := .running, waitReg := none, mask := 0, maskAll := false, runSince := s.datum }
    let s := setCore s c { coreOf s c with run := some t, fw := k.fw, slot := k.slot, trapped := false, stores := [], rchip := [] }
    let s := if Tab.has s.contexts (savedKey t) then moveContext t r s else s
    if domainOn s r (c % 32) then s else setDomain s r (c % 32) (.poweringUp s.datum true)

/-- Cores in service per region in a power state (R492). -/
def psCores (ps : Nat) : Nat := [32, 24, 12, 0, 0].getD ps 0

/-- Cores of a region that may be busy at once: those of the power state, whose limits dump mode suspends (R492). -/
def coreLimit (s : State) : Nat := if s.dump.active then 32 else psCores s.supply.ps

/-- Cores of a region that may be busy with best-effort tasks at the enforcement level (R476). -/
def bestEffortLimit (s : State) : Nat := 32 * (100 - 10 * s.thermal.level) / 100

/-- Tasks that run on the cores of a region. -/
def runningIn (s : State) (r : Nat) : List Task :=
  (List.range 32).filterMap fun i => (coreOf s (32 * r + i)).run.bind (taskOf s)

/-- One more task may run in a region (R476, R492). -/
def coreAllowed (s : State) (r : Nat) (k : Task) : Bool :=
  let l := runningIn s r
  decide (l.length < coreLimit s)
    && (k.deadline.isSome || decide ((l.filter fun x => x.deadline.isNone).length < bestEffortLimit s))

/-- An idle core of a lit region takes the chosen ready task (R327). -/
def execTaskDispatch (r : RegionId) (s : State) : Out :=
  .next (
    if !isLit s r.val then s
    else match chooseTask s r.val with
      | none => s
      | some (t, k) => if !coreAllowed s r.val k then s else
        match coreFor s r.val k with
        | none => s
        | some c => runOn t c (if k.deadline.isSome then s else countDispatch r.val k.slice s))

/-- Suspends a running task at an instruction boundary: it returns to the tail of its queue (R308, R329). -/
def suspendTask (t : Nat) (s : State) : State :=
  let s := leaveCore t s
  let now := s.datum
  modTask t (fun k => { k with phase := .ready, readySince := now }) s

/-- A best-effort task is suspended for a deadline task when every core of its region in service is busy, or after 1 ms
while a task of another slice is ready (R329, R492). -/
def execTaskPreempt (c : CoreId) (s : State) : Out :=
  .next (match running s c with
    | none => s
    | some v =>
      let l := readyTasks s (regionOf c)
      let full := (idleCoreList s (regionOf c)).isEmpty || decide (coreLimit s ≤ (runningIn s (regionOf c)).length)
      let forDeadline := full && l.any fun p => p.2.deadline.isSome
      let quantum := decide (100000 ≤ s.datum - v.task.runSince) && l.any fun p => decide (p.2.slice ≠ v.task.slice)
      if v.task.deadline.isNone && (forDeadline || quantum) then suspendTask v.t s else s)

/-! ### Migration (R330) -/

/-- A task has an engine operation busy (R374). -/
def opBusy (k : Task) : Bool := k.tickets.any fun e => decide (e.2.state = .busy)

/-- Moves a task to region `r` with its state unchanged (R330). -/
def migrate (t r : Nat) (s : State) : State := moveContext t r (modTask t (fun k => { k with region := r }) s)

/-- A region whose idle core has waited 10,000 ticks, lowest first (R330). -/
def idleRegion (s : State) (r : Nat) : Option Nat :=
  (litRegions s).find? fun q => decide (q ≠ r) &&
    (idleCoreList s q).any fun c => decide (10000 ≤ s.datum - (coreOf s c).idleSince)

/-- A ready task that has waited 500 µs moves to a region with an idle core (R330). -/
def execTaskMigrateLoad (task : Nat) (s : State) : Out :=
  .next (match taskOf s task with
    | none => s
    | some k =>
      if k.phase = .ready ∧ 50000 ≤ s.datum - k.readySince ∧ opBusy k = false then
        match idleRegion s k.region with
        | some r => migrate task r s
        | none => s
      else s)

/-- A task of a region in penumbra moves to the next lit region once it is off its core and no operation is busy
(R330). -/
def execTaskMigratePenumbra (task : Nat) (s : State) : Out :=
  .next (match taskOf s task with
    | none => s
    | some k =>
      if (region s k.region).state = .penumbra ∧ k.phase ≠ .running ∧ opBusy k = false then
        migrate task (nextLit s k.region) s
      else s)

/-! ### The datum alarm (R31) -/

/-- The alarm value of a task (R29). -/
def alarmValue (k : Task) : Nat := k.ports.alarmHi.toNat * 2 ^ 32 + k.ports.alarmLo.toNat

/-- The alarm fires: the flag is set, ARM cleared and FIRED set (R31). -/
def fireAlarm (t : Nat) (s : State) : State :=
  match taskOf s t with
  | none => s
  | some k =>
    setFlag t k.ports.alarmFlag
      (setTask s t { k with ports := { k.ports with arm := false, fired := true } })

/-- The datum has reached an armed alarm value (R31). -/
def execDatumAlarmFire (task : Nat) (s : State) : Out :=
  .next (match taskOf s task with
    | none => s
    | some k => if k.ports.arm && decide (alarmValue k ≤ s.datum) then fireAlarm task s else s)

end Sys2Proof.Machine
end

