-- ==== Sys2Proof/Machine/TaskPorts.lean ====
section
/-! DEFINITION. The task, spawn, pool, datum and pace ports (R27 to R33, R341 to R354). A read answers the port's value
and the state after its side effect; a write answers the state. -/

namespace Sys2Proof.Machine

/-- Changes the port registers of a task. -/
def modPorts (t : Nat) (f : PortRegs → PortRegs) (s : State) : State :=
  modTask t (fun k => { k with ports := f k.ports }) s

/-- Bit 31 with a status in the low byte: a refusal (R343, R353, R374). -/
def refusedWord (st : Nat) : Word := BitVec.ofNat 32 (2 ^ 31 + st)

/-! ### Task ports (R341, R342) -/

/-- TK_FLOW (R342). -/
def tkFlow (k : Task) : Word :=
  match k.flow with
  | some (f, _) => BitVec.ofNat 32 (2 ^ 31 + f % 1024)
  | none => 0

/-- TK_SEQ: the sequence number, 0 outside a flow (R341). -/
def tkSeq (k : Task) : Word :=
  match k.flow with
  | some (_, n) => BitVec.ofNat 32 n
  | none => 0

/-- TK_RUN (R342). -/
def tkRun (k : Task) : Word := BitVec.ofNat 32 (min 255 k.restarts * 2 ^ 24 + k.holding.length % 512)

/-- TK_CLRF clears every pending flag whose bit is 1 (R341). -/
def tkClrf (t : Nat) (x : Word) (s : State) : State := modTask t (fun k => { k with flags := k.flags &&& ~~~ x }) s

/-! ### Spawn (R338, R343) -/

/-- The spawn parameters of the ports. -/
def spawnParams (k : Task) (child : Nat) : SpawnRecord :=
  let p := k.ports
  { slot := bits p.spSlot.toNat 9 0, budget := p.spBudget.toNat, ctl := p.spCtl.toNat, mask := p.spMask.toNat,
    args := p.spArgs.toList, child := child }

/-- The slice of a child: the spawner's own at program privilege (R341, R342). -/
def childSlice (v : View) : Nat := if viewFw v then bits v.task.ports.spCtl.toNat 8 0 else v.task.slice

/-- The first failing check of a spawn, in the order of R343. -/
def spawnRefusal (v : View) (s : State) : Option Nat :=
  let p := v.task.ports
  let fmode := bits p.spCtl.toNat 31 30
  let sl := childSlice v
  if 2 ≤ fmode ∨ (fmode = 1 ∧ v.task.flow = none) then some 0x07
  else if !(match Tab.get? s.progs (bits p.spSlot.toNat 9 0) with
      | some g => !g.closing && decide (g.slice = sl)
      | none => false) then some 0x8D
  else if !viewFw v && decide (v.task.steps.toNat < p.spBudget.toNat + 1) then some 0x84
  else if !taskAvailable s sl then some 0x87
  else none

/-- Deducts a child's budget at program privilege (R343). -/
def deductBudget (v : View) (k : Task) : Task :=
  if viewFw v then k else { k with steps := k.steps - (k.ports.spBudget + 1) }

/-- A read of SP_GO: a replayed spawn returns the earlier child, or ends the task when a parameter differs (R338); else
the checks of R343, and the child is created in its parent's region (R322). -/
def spGo (v : View) (s : State) : Word × State :=
  match v.task.spawnLog[v.task.spawns]? with
  | some old =>
    if spawnParams v.task old.child = old then
      (BitVec.ofNat 32 old.child,
        modTask v.t (fun k => deductBudget v { k with spawns := k.spawns + 1 }) s)
    else (0, endTask v.t 0x83 s)
  | none =>
    match spawnRefusal v s with
    | some st => (refusedWord st, s)
    | none =>
      let p := v.task.ports
      let flow := if bits p.spCtl.toNat 31 30 = 1 then v.task.flow.map (·.1) else none
      let (i, s) := createTask (childSlice v) (bits p.spSlot.toNat 9 0) false v.task.region flow p.spBudget.toNat p.spMask
        p.spArgs.toList v.task.inv false (v.c / 8 % 4) none s
      let tid := ((taskOf s i).map (tidOf i)).getD 0
      (tid, modTask v.t (fun k => deductBudget v
        { k with spawns := k.spawns + 1, spawnLog := k.spawnLog ++ [spawnParams v.task tid.toNat] }) s)

/-! ### Pools (R344 to R354) -/

/-- The pools a task may act on: its own slice's, or any at firmware privilege (R353). -/
def poolFor (v : View) (s : State) (n : Nat) : Option Pool :=
  match Tab.get? s.poolTab n with
  | some p => if viewFw v || decide (p.slice = v.task.slice) then some p else none
  | none => none

/-- A read of PL_ALLOCn (R346, R350, R351). -/
def plAlloc (v : View) (n : Nat) (s : State) : Word × State :=
  match poolFor v s n with
  | none => (0x01, s)
  | some p =>
    let fore := forerunner s p.slice
    let mine := (p.used.filter fun u => decide (u.2.2 = v.task.slot)).length
    if 256 ≤ v.task.holding.length then (0x06, s)
    else if fore && decide (p.quota ≠ 0 ∧ p.quota ≤ mine) then (0x4E, s)
    else match Tab.lowestFree p.used 0 p.count with
      | none => (if fore then 0x4E else 0x8C, s)
      | some i =>
        let a := p.base + i * 2 ^ p.log2sz
        let s := { s with poolTab := Tab.set s.poolTab n { p with used := Tab.set p.used i (1, v.task.slot) } }
        (BitVec.ofNat 32 a, modTask v.t (fun k => { k with holding := k.holding ++ [(a, 1)] }) s)

/-- Sets PL_STATUS. -/
def plStatus (t st : Nat) (s : State) : State := modPorts t (fun p => { p with plStatus := st }) s

/-- A free or a share of the buffer at `a`: applied at once when it is on the holding list or at firmware privilege;
otherwise checked, and staged when the check succeeds (R347 to R350). -/
def plChange (v : View) (up : Bool) (x : Word) (s : State) : State :=
  let a := x.toNat
  let held := v.task.holding.any fun e => decide (e.1 = a)
  let r := if up then shareBuffer v.task.slice a s else freeBuffer v.task.slice a s
  if held || viewFw v then
    let s := if r.1 = 0 && held then modTask v.t (fun k => { k with holding := holdChange k.holding a up }) r.2 else r.2
    plStatus v.t r.1 s
  else if r.1 = 0 then
    plStatus v.t 0
      (modTask v.t (fun k => { k with effects := k.effects ++ [if up then .poolShare a else .poolFree a] }) s)
  else plStatus v.t r.1 r.2

/-- A write of PL_QUERY latches PL_QINFO (R353, R354). -/
def plQuery (v : View) (x : Word) (s : State) : State :=
  let info := match bufferAt s v.task.slice x.toNat with
    | none => 0
    | some (n, p, i) =>
      match Tab.get? p.used i with
      | some (r, _) => 2 ^ 31 + 2 ^ 30 + n % 64 * 2 ^ 24 + r % 65536
      | none => 2 ^ 31 + n % 64 * 2 ^ 24
  modPorts v.t (fun p => { p with plQinfo := BitVec.ofNat 32 info }) s

/-- The lowest place of a pool window for `n` bytes, aligned to the buffer size, clear of the slice's pools (R344). -/
def poolPlace (s : State) (sl size n : Nat) : Option Nat :=
  let own := (s.poolTab.filter fun p => decide (p.2.slice = sl)).map (·.2)
  let ends := 0x40000000 :: own.map fun p => roundUp (p.base + p.count * 2 ^ p.log2sz) size
  let ok := fun b => decide (b + n ≤ 2 ^ 32) && own.all fun p => decide (b + n ≤ p.base ∨ p.base + p.count * 2 ^ p.log2sz ≤ b)
  leastBy id (ends.filter ok)

/-- A free pool number: which one the spec leaves open (assumption 10). -/
def freePoolNo (s : State) : Option Nat :=
  let i := freeNat s % 64
  (Tab.lowestFree s.poolTab i (64 - i)).or (Tab.lowestFree s.poolTab 0 i)

/-- A read of PL_CREATE (R345). -/
def plCreate (v : View) (s : State) : Word × State :=
  let cfg := v.task.ports.plCfg.toNat
  let lg := bits cfg 25 21
  let count := bits cfg 20 0 + 1
  let mib := mibOf (count * 2 ^ lg)
  let fail := fun st => (refusedWord st, plStatus v.t st s)
  if lg < 12 ∨ 21 < lg ∨ 1048576 < count then fail 0x07
  else match freePoolNo s with
    | none => fail 0x87
    | some n =>
      if !dramRoom s v.task.slice mib then fail 0x87
      else match poolPlace s v.task.slice (2 ^ lg) (count * 2 ^ lg) with
        | none => fail 0x87
        | some b =>
          let p : Pool := { slice := v.task.slice, log2sz := lg, count := count, base := b, region := v.task.region,
                            quota := bits v.task.ports.plQuota.toNat 20 0 }
          (BitVec.ofNat 32 n,
            plStatus v.t 0 (charge v.task.slice mib (drew 1 { s with poolTab := Tab.set s.poolTab n p })))

/-- A staged operation of some task names a buffer of the pool. -/
def stagedOn (s : State) (p : Pool) : Bool :=
  let inside := fun a : Nat => decide (p.base ≤ a ∧ a < p.base + p.count * 2 ^ p.log2sz)
  s.tasks.any fun k => decide (k.2.slice = p.slice) && k.2.effects.any fun e => match e with
    | .poolFree a => inside a
    | .poolShare a => inside a
    | .handOut a => inside a
    | _ => false

/-- A write of PL_DESTROY (R345). -/
def plDestroy (v : View) (x : Word) (s : State) : State :=
  let n := bits x.toNat 5 0
  match poolFor v s n with
  | none => plStatus v.t 0x01 s
  | some p =>
    if !p.used.isEmpty || stagedOn s p then plStatus v.t 0x05 s
    else plStatus v.t 0 (credit p.slice (mibOf (p.count * 2 ^ p.log2sz)) { s with poolTab := Tab.erase s.poolTab n })

/-- The information ports of the selected pool (R353, R354); zero for a pool of another slice. -/
def plInfo (v : View) (s : State) (f : Pool → Nat) : Word :=
  match poolFor v s (bits v.task.ports.plSel.toNat 5 0) with
  | some p => BitVec.ofNat 32 (f p)
  | none => 0

/-! ### Datum and pace (R28 to R33) -/

/-- The datum as the core's region reads it (R26). -/
def regionDatum (v : View) (s : State) : Nat := Tab.getD s.copies (v.c / 32) s.datum

/-- A read of DT_NOW_LO captures the high word (R28). -/
def dtNowLo (v : View) (s : State) : Word × State :=
  let d := regionDatum v s
  (BitVec.ofNat 32 d, modPorts v.t (fun p => { p with nowHi := some (BitVec.ofNat 32 (d / 2 ^ 32)) }) s)

/-- A read of DT_NOW_HI (R28). -/
def dtNowHi (v : View) (s : State) : Word := v.task.ports.nowHi.getD (BitVec.ofNat 32 (regionDatum v s / 2 ^ 32))

/-- DT_ALARM_CTL as it reads (R30). -/
def alarmCtl (k : Task) : Word :=
  BitVec.ofNat 32 (flagBit k.ports.arm 31 + flagBit k.ports.fired 30 + k.ports.alarmFlag % 32)

/-- A write of DT_ALARM_CTL; an alarm value already reached fires at once (R30, R31). -/
def alarmCtlWrite (v : View) (x : Word) (s : State) : State :=
  let s := modPorts v.t (fun p => { p with
    arm := x.getLsbD 31
    fired := p.fired && !x.getLsbD 30
    alarmFlag := bits x.toNat 4 0 }) s
  if x.getLsbD 31 && decide (alarmValue v.task ≤ s.datum) then fireAlarm v.t s else s

/-- PACE_Rn (R33): the pace is 0 in umbra or retirement. -/
def paceWord (s : State) (r : Nat) : Nat :=
  let g := region s r
  stateCode g * 2 ^ 30 + g.trim % 64 * 2 ^ 24 + (if 2 ≤ stateCode g then 0 else g.pace % 65536)

/-! ### The ranges 0x0000, 0x0100 and 0x0700 -/

/-- Reads of ports 0x0000 to 0x00FF (R341). -/
def taskPortRead (v : View) (p : Nat) (s : State) : Word × State :=
  let k := v.task
  match p with
  | 0x00 => (tidOf v.t k, s)
  | 0x01 => (k.flags, s)
  | 0x03 => (tkFlow k, s)
  | 0x04 => (tkSeq k, s)
  | 0x05 => (tkRun k, s)
  | 0x10 => (k.ports.spSlot, s)
  | 0x11 => (k.ports.spBudget, s)
  | 0x12 => (k.ports.spCtl, s)
  | 0x13 => (k.ports.spMask, s)
  | 0x14 => (k.ports.spArgs[0], s)
  | 0x15 => (k.ports.spArgs[1], s)
  | 0x16 => (k.ports.spArgs[2], s)
  | 0x17 => (k.ports.spArgs[3], s)
  | 0x18 => spGo v s
  | _ => (0, s)

/-- A value of SP_CTL whose fields are all defined: FMODE 10b and 11b are not, nor a SLICE above 256 where SLICE is used,
at firmware privilege (R342). -/
def spCtlOk (v : View) (x : Word) : Bool :=
  decide (bits x.toNat 31 30 < 2) && (!viewFw v || decide (bits x.toNat 8 0 ≤ 256))

/-- Writes of ports 0x0000 to 0x00FF (R341); Rsvd bits stay zero (R9), an undefined value is not stored (R10). -/
def taskPortWrite (v : View) (p : Nat) (x : Word) (s : State) : State :=
  match p with
  | 0x02 => tkClrf v.t x s
  | 0x10 => modPorts v.t (fun q => { q with spSlot := x &&& 0x3FF#32 }) s
  | 0x11 => modPorts v.t (fun q => { q with spBudget := x }) s
  | 0x12 => if spCtlOk v x then modPorts v.t (fun q => { q with spCtl := x &&& 0xC00001FF#32 }) s else s
  | 0x13 => modPorts v.t (fun q => { q with spMask := x }) s
  | 0x14 => modPorts v.t (fun q => { q with spArgs := q.spArgs.set 0 x }) s
  | 0x15 => modPorts v.t (fun q => { q with spArgs := q.spArgs.set 1 x }) s
  | 0x16 => modPorts v.t (fun q => { q with spArgs := q.spArgs.set 2 x }) s
  | 0x17 => modPorts v.t (fun q => { q with spArgs := q.spArgs.set 3 x }) s
  | _ => s

/-- Reads of ports 0x0100 to 0x01FF, by offset (R353). -/
def poolPortRead (v : View) (p : Nat) (s : State) : Word × State :=
  let k := v.task
  if p < 0x40 then plAlloc v p s
  else match p with
    | 0x42 => (BitVec.ofNat 32 (k.ports.plStatus % 256), s)
    | 0x44 => (k.ports.plQinfo, s)
    | 0x50 => (k.ports.plCfg, s)
    | 0x51 => (k.ports.plQuota, s)
    | 0x52 => plCreate v s
    | 0x54 => (k.ports.plSel, s)
    | 0x55 => (plInfo v s (·.base), s)
    | 0x56 => (plInfo v s fun p => 2 ^ 31 + p.log2sz * 2 ^ 21 + (p.count - 1), s)
    | 0x57 => (plInfo v s fun p => p.count - p.used.length, s)
    | 0x58 => (plInfo v s (·.dfree), s)
    | _ => (0, s)

/-- Writes of ports 0x0100 to 0x01FF, by offset (R353); a PL_CFG with an undefined LOG2SZ or COUNT is not stored
(R10, R354). -/
def poolPortWrite (v : View) (p : Nat) (x : Word) (s : State) : State :=
  match p with
  | 0x40 => plChange v false x s
  | 0x41 => plChange v true x s
  | 0x43 => plQuery v x s
  | 0x50 =>
    if 12 ≤ bits x.toNat 25 21 ∧ bits x.toNat 25 21 ≤ 21 ∧ bits x.toNat 20 0 < 1048576 then
      modPorts v.t (fun q => { q with plCfg := x &&& 0x3FFFFFF#32 }) s
    else s
  | 0x51 => modPorts v.t (fun q => { q with plQuota := x &&& 0x1FFFFF#32 }) s
  | 0x53 => plDestroy v x s
  | 0x54 => modPorts v.t (fun q => { q with plSel := x &&& 0x3F#32 }) s
  | _ => s

/-- Reads of ports 0x0700 to 0x07FF, by offset (R27). -/
def datumPortRead (v : View) (p : Nat) (s : State) : Word × State :=
  match p with
  | 0x00 => dtNowLo v s
  | 0x01 => (dtNowHi v s, s)
  | 0x02 => (v.task.ports.alarmLo, s)
  | 0x03 => (v.task.ports.alarmHi, s)
  | 0x04 => (alarmCtl v.task, s)
  | 0x18 => (BitVec.ofNat 32 (paceWord s (v.c / 32)), s)
  | p => if 0x10 ≤ p ∧ p < 0x18 then (BitVec.ofNat 32 (paceWord s (p - 0x10)), s) else (0, s)

/-- Writes of ports 0x0700 to 0x07FF, by offset (R27). -/
def datumPortWrite (v : View) (p : Nat) (x : Word) (s : State) : State :=
  match p with
  | 0x02 => modPorts v.t (fun q => { q with alarmLo := x }) s
  | 0x03 => modPorts v.t (fun q => { q with alarmHi := x }) s
  | 0x04 => alarmCtlWrite v x s
  | _ => s

end Sys2Proof.Machine
end

