-- ==== Sys2Proof/Machine/Digest.lean ====
section
/-! DEFINITION. The digest engine and its ports (R421 to R437), host Digest sessions (R438 to R440), the key store and its
ports (R443 to R448). The order of the checks of OPEN and RESTORE is assumption 21. -/

namespace Sys2Proof.Machine

/-! ### Key slots (R429, R431, R443) -/

/-- Key slot `i`. -/
def keyOf (s : State) (i : Nat) : KeySlot := Tab.getD s.keys i {}

/-- A derived-key slot of a slice that is usable (R429, R446). -/
def derivedOf (s : State) (sl i : Nat) : Bool :=
  let k := keyOf s i
  decide (k.typ = .derived ∧ k.owner = sl) && !k.lost

/-- Derived-key slots that a slice holds (R431). -/
def derivedCount (s : State) (sl : Nat) : Nat :=
  (s.keys.filter fun k => decide (k.2.typ = .derived ∧ k.2.owner = sl)).length

/-- The lowest free slot from 4 to 255 (R431). -/
def freeKeySlot (s : State) : Option Nat :=
  ((List.range 252).map (· + 4)).find? fun i => decide ((keyOf s i).typ = .free)

/-- Writes a key into a slot: its generation rises, its wrapped copies are not yet durable, and those of a key it replaces
are invalid (R445, R448). -/
def writeKey (i : Nat) (typ : KeyType) (owner : Nat) (key : List Byte) (s : State) : State :=
  let k := keyOf s i
  { s with keys := Tab.set s.keys i { typ := typ, owner := owner, gen := k.gen + 1, bits := 8 * key.length, key := key,
                                      stale := k.stale || decide (k.typ ≠ .free) } }

/-- Changes a key slot. -/
def modKey (i : Nat) (f : KeySlot → KeySlot) (s : State) : State := { s with keys := Tab.set s.keys i (f (keyOf s i)) }

/-- The derived-key slot that a result goes to, or the ERR that refuses it (R431). -/
def keyDest (s : State) (sl : Nat) (new : Bool) (slot : Nat) : Except Nat Nat :=
  if new then
    if 16 ≤ derivedCount s sl then .error 0x87
    else match freeKeySlot s with
      | some i => .ok i
      | none => .error 0x87
  else if derivedOf s sl slot then .ok slot else .error 0x1A

/-- An HMAC of algorithm `alg` uses a slot: its cached states become those of `alg` (R430). -/
def useKey (hmac : Bool) (slot alg : Nat) (s : State) : State :=
  if hmac then modKey slot (fun k => { k with cacheAlg := some alg }) s else s

/-! ### Hashing (R424 to R426) -/

/-- A hash at its start: plain, or at the inner state of a key (R424, R430). -/
def startHash (s : State) (alg : Nat) (hmac : Bool) (slot : Nat) : HashState :=
  { words := if hmac then hmacInner alg (keyOf s slot).key else algInit alg }

/-- Feeds bytes and absorbs every whole block. -/
def feedHash (alg : Nat) (x : HashState) (bs : List Byte) : HashState :=
  let r := absorbAll alg x.words (x.buf ++ bs)
  { words := r.1, buf := r.2, count := x.count + bs.length }

/-- The output of a finished hash (R426). -/
def finishHash (s : State) (alg : Nat) (hmac : Bool) (slot : Nat) (x : HashState) : List Byte :=
  let inner := algFinish alg x.words x.buf (x.count + (if hmac then algBlock alg else 0))
  if hmac then hmacOuter alg (keyOf s slot).key inner else inner

/-! ### Contexts (R424, R433, R437) -/

/-- Key of context slot `i` of region `r`. -/
def ctxKey (r i : Nat) : Nat := 8 * r + i

/-- Slice of the holder of a context. -/
def ctxSlice (s : State) (o : CtxOwner) : Nat :=
  match o with
  | .task t => ((taskOf s t).map (·.slice)).getD 0
  | .session n => ((Tab.get? s.sessions n).map (·.slice)).getD 0

/-- Contexts that the tasks and sessions of a slice hold (R433). -/
def ctxUsed (s : State) (sl : Nat) : Nat := (s.contexts.filter fun c => decide (ctxSlice s c.2.owner = sl)).length

/-- The digest context share of a slice; slice 0 has what no tenant slice holds (R433, R453). -/
def ctxShare (s : State) (sl : Nat) : Nat :=
  if sl = 0 then 64 - ((tenants s).map fun p => p.2.dctx).sum else (sliceOf s sl).dctx

/-- A context of a task at its start. -/
def newContext (t alg : Nat) (hmac : Bool) (slot : Nat) (x : HashState) (now : Nat) : DigestCtx :=
  { owner := .task t, alg := alg, hmac := hmac, keySlot := slot, hash := x, busy := false, finishing := false, used := now }

/-- The context that a task holds, with its key. -/
def ctxOf (s : State) (k : Task) : Option (Nat × DigestCtx) :=
  k.ctx.bind fun p => (Tab.get? s.contexts (ctxKey p.1 p.2)).map fun x => (ctxKey p.1 p.2, x)

/-- Changes a context. -/
def setCtx (key : Nat) (x : DigestCtx) (s : State) : State := { s with contexts := Tab.set s.contexts key x }

/-- A task takes a context (R424). -/
def takeContext (t key : Nat) (x : DigestCtx) (s : State) : State :=
  modTask t (fun k => { k with ctx := some (key / 8, key % 8) }) (setCtx key x s)

/-- A task's context is freed (R427); a key that its FINAL has written no longer makes it READY. -/
def freeContextOf (t : Nat) (s : State) : State :=
  match (taskOf s t).bind (·.ctx) with
  | some _ => modTask t (fun k => { k with ctx := none }) (dropContext t s)
  | none => s

/-- A host session's context is saved into its record and freed (R437). -/
def saveSession (n : Nat) (s : State) : State :=
  match Tab.get? s.sessions n with
  | some q =>
    match q.ctx with
    | some k => { s with contexts := Tab.erase s.contexts k, sessions := Tab.set s.sessions n { q with ctx := none } }
    | none => s
  | none => s

/-- The sessions with a context in region `r`, least recently used first. -/
def lruSession (s : State) (ok : Nat → Bool) : Option Nat :=
  let l := s.contexts.filter fun c => ok (c.1 / 8)
  let l := l.filterMap fun c => match c.2.owner with
    | .session n => some (c.2.used, n)
    | .task _ => none
  (leastBy (fun e : Nat × Nat => e.1) l).map (·.2)

/-- The digest engine of region `r` is retired: tasks that hold its contexts are restarted and host sessions are saved
(R505). -/
def digestEngineOut (r : Nat) (s : State) : State :=
  (s.contexts.filter fun c => decide (c.1 / 8 = r)).foldl (fun s c => match c.2.owner with
    | .task t => restartTask t s
    | .session n => saveSession n s) s

/-! ### DG_CTRL (R422 to R435) -/

/-- Sets ERR (R423). -/
def dgErr (t e : Nat) (s : State) : State := modPorts t (fun p => { p with dgErr := e }) s

/-- Takes a context for OPEN or RESTORE; a full engine sets BUSY_ALL (R433). -/
def openContext (v : View) (alg : Nat) (hmac : Bool) (slot : Nat) (x : HashState) (s : State) : Except State State :=
  match freeContext s v.task.region with
  | none => .error (modPorts v.t (fun p => { p with dgErr := 0x10, dgBusyAll := true }) s)
  | some key =>
    if hmac && !derivedOf s v.task.slice slot then .error (dgErr v.t 0x1A s)
    else if ctxShare s v.task.slice ≤ ctxUsed s v.task.slice then .error (dgErr v.t 0x87 s)
    else .ok (takeContext v.t key (newContext v.t alg hmac slot x s.datum) (useKey hmac slot alg s))

/-- CMD 1, OPEN (R424, R429, R433). -/
def dgOpenCmd (v : View) (s : State) : State :=
  let p := v.task.ports
  if v.task.ctx.isSome then dgErr v.t 0x07 s
  else match openContext v p.dgAlg p.dgHmac p.dgKeySlot (startHash s p.dgAlg p.dgHmac p.dgKeySlot) s with
    | .error s => s
    | .ok s => modPorts v.t (fun p => { p with dgErr := 0, dgReady := false, dgLenErr := false, dgResult := [] }) s

/-- CMD 2, FINAL: it is accepted once; the comparison with DG_LEN follows any absorb in progress (R426). -/
def dgFinalCmd (v : View) (s : State) : State :=
  let p := v.task.ports
  match ctxOf s v.task with
  | none => dgErr v.t 0x07 s
  | some (key, x) =>
    if x.finishing then dgErr v.t 0x07 s
    else
      dgErr v.t 0 (setCtx key { x with
        finishing := true
        finTokey := p.dgTokey
        finDest := p.dgDest
        finFlag := p.dgFlag
        finEqual := if x.busy then none else some (decide (x.hash.count = p.dgLen)) } s)

/-- CMD 3, CLOSE (R427). -/
def dgCloseCmd (v : View) (s : State) : State :=
  if v.task.ctx.isNone then dgErr v.t 0x07 s
  else modPorts v.t (fun p => { p with dgErr := 0, dgReady := false, dgResult := [] }) (freeContextOf v.t s)

/-- The hash of a context with the block that is being absorbed taken in. -/
def settledHash (x : DigestCtx) : HashState :=
  let r := absorbAll x.alg x.hash.words x.hash.buf
  { x.hash with words := r.1, buf := r.2 }

/-- The 200 bytes of STATE in a save image (R435). -/
def stateBytes (alg : Nat) (ws : List Nat) : List Byte :=
  fit 200 (match alg with
    | 0 => ws.flatMap (toBe 4)
    | 1 => ws.flatMap (toBe 8)
    | 2 => ws.flatMap (toBe 8)
    | _ => ws.flatMap (toLe 8))

/-- The words that a STATE field holds. -/
def stateWords (alg : Nat) (bs : List Byte) : List Nat :=
  match alg with
  | 0 => (List.range 8).map fun i => ofBe (slice bs (4 * i) 4)
  | 1 => (List.range 8).map fun i => ofBe (slice bs (8 * i) 8)
  | 2 => (List.range 8).map fun i => ofBe (slice bs (8 * i) 8)
  | _ => (List.range 25).map fun i => ofLe (slice bs (8 * i) 8)

/-- A save image (R435). -/
def saveImage (s : State) (x : DigestCtx) (h : HashState) : List Byte :=
  layout 320 [(0, [1, 0]), (2, toLe 1 x.alg), (3, toLe 1 (flagBit x.hmac 0)), (4, toLe 1 (if x.hmac then x.keySlot else 0)),
    (8, toLe 8 h.count), (16, toLe 4 (if x.hmac then (keyOf s x.keySlot).gen else 0)), (64, stateBytes x.alg h.words)]

/-- CMD 4, SAVE (R434). -/
def dgSaveCmd (v : View) (s : State) : State :=
  let p := v.task.ports
  match ctxOf s v.task with
  | none => dgErr v.t 0x07 s
  | some (_, x) =>
    let h := settledHash x
    if x.finishing then dgErr v.t 0x07 s
    else if !h.buf.isEmpty then dgErr v.t 0x1B s
    else if !rangeOk s v.t v.task p.dgCtx 320 true then dgErr v.t 0x19 s
    else
      let s := (pokeBytes v.t v.task p.dgCtx (saveImage s x h) s).1
      setFlag v.t p.dgFlag (dgErr v.t 0 (freeContextOf v.t s))

/-- A save image is well formed (R434, R435). -/
def imageOk (im : List Byte) : Bool :=
  decide (field im 0 2 = 1 ∧ field im 2 1 < 4 ∧ field im 3 1 < 2) && zeroAt im 5 3 && zeroAt im 20 44 && zeroAt im 264 56

/-- CMD 5, RESTORE (R434); an image in a lost burst ends the task as an engine's read does (R269). -/
def dgRestoreCmd (v : View) (s : State) : State :=
  let p := v.task.ports
  if v.task.ctx.isSome then dgErr v.t 0x07 s
  else if !rangeOk s v.t v.task p.dgCtx 320 false then dgErr v.t 0x19 s
  else if rangeLost s v.t v.task p.dgCtx 320 then endTask v.t 0x83 s
  else
    let im := peekBytes s v.t v.task p.dgCtx 320
    let alg := field im 2 1
    let hmac := decide (field im 3 1 = 1)
    let slot := field im 4 1
    if !imageOk im then dgErr v.t 0x07 s
    else if hmac && !(derivedOf s v.task.slice slot && decide ((keyOf s slot).gen = field im 16 4)) then dgErr v.t 0x1A s
    else
      let x : HashState := { words := stateWords alg (slice im 64 200), count := field im 8 8 }
      match openContext v alg hmac slot x s with
      | .error s => s
      | .ok s => setFlag v.t p.dgFlag (modPorts v.t (fun p => { p with dgErr := 0, dgReady := false, dgLenErr := false }) s)

/-- CMD 6, ERASEKEY (R432). -/
def dgEraseKeyCmd (v : View) (s : State) : State :=
  let i := v.task.ports.dgDest % 256
  if derivedOf s v.task.slice i then dgErr v.t 0 (eraseKey i s) else dgErr v.t 0x1A s

/-- A write of DG_CTRL: an invalid CMD or ALG has no effect (R423). -/
def dgCtrlWrite (v : View) (x : Word) (s : State) : State :=
  let cmd := bits x.toNat 31 28
  let alg := bits x.toNat 27 24
  if 6 < cmd ∨ 3 < alg then s
  else
    let p := { v.task.ports with dgAlg := alg, dgHmac := x.getLsbD 23, dgTokey := x.getLsbD 22, dgFlag := bits x.toNat 4 0 }
    let v := { v with task := { v.task with ports := p } }
    let s := modPorts v.t (fun _ => p) s
    match cmd with
    | 1 => dgOpenCmd v s
    | 2 => dgFinalCmd v s
    | 3 => dgCloseCmd v s
    | 4 => dgSaveCmd v s
    | 5 => dgRestoreCmd v s
    | 6 => dgEraseKeyCmd v s
    | _ => s

/-- A word of DG_DATA (R424, R425). -/
def dgData (v : View) (x : Word) (s : State) : State :=
  match ctxOf s v.task with
  | none => s
  | some (key, c) =>
    if c.finishing then s
    else if c.busy then modPorts v.t (fun p => { p with dgOvr := true }) s
    else
      let left := v.task.ports.dgLen - c.hash.count
      let n := if 1 ≤ left ∧ left ≤ 3 then left else 4
      let buf := c.hash.buf ++ (toLe 4 x.toNat).take n
      setCtx key { c with hash := { c.hash with buf := buf, count := c.hash.count + n },
                          busy := decide (algBlock c.alg ≤ buf.length), used := s.datum } s

/-- DG_STATUS (R422). -/
def dgStatus (s : State) (k : Task) : Word :=
  let p := k.ports
  let busy := ((ctxOf s k).map fun c => c.2.busy).getD false
  BitVec.ofNat 32 (flagBit p.dgReady 31 + flagBit busy 30 + flagBit k.ctx.isSome 29 + flagBit p.dgOvr 28
    + flagBit p.dgLenErr 27 + flagBit p.dgEarly 26 + flagBit p.dgBusyAll 25
    + ((k.ctx.map (·.2)).getD 0) % 8 * 2 ^ 22 + p.dgErr % 256)

/-- A read of DG_RESULTi: zero, with EARLY set, while READY is clear (R427). -/
def dgResult (v : View) (i : Nat) (s : State) : Word × State :=
  let p := v.task.ports
  if p.dgReady then (BitVec.ofNat 32 (ofLe (slice p.dgResult (4 * i) 4)), s)
  else (0, modPorts v.t (fun p => { p with dgEarly := true }) s)

/-- Reads of ports 0x0300 to 0x03FF, by offset (R422). -/
def dgPortRead (v : View) (p : Nat) (s : State) : Word × State :=
  let q := v.task.ports
  match p with
  | 0x00 => (BitVec.ofNat 32 (q.dgAlg % 16 * 2 ^ 24 + flagBit q.dgHmac 23 + flagBit q.dgTokey 22 + q.dgFlag % 32), s)
  | 0x01 => (dgStatus s v.task, s)
  | 0x02 => (BitVec.ofNat 32 q.dgLen, s)
  | 0x03 => (BitVec.ofNat 32 (q.dgLen / 2 ^ 32), s)
  | 0x05 => (BitVec.ofNat 32 q.dgKeySlot, s)
  | 0x06 => (BitVec.ofNat 32 q.dgDest, s)
  | 0x07 => (BitVec.ofNat 32 q.dgCtx, s)
  | p => if 0x10 ≤ p ∧ p < 0x20 then dgResult v (p - 0x10) s else (0, s)

/-- Writes of ports 0x0300 to 0x03FF, by offset (R422); a DG_CTX that is no multiple of 8 has no effect (R10). -/
def dgPortWrite (v : View) (p : Nat) (x : Word) (s : State) : State :=
  match p with
  | 0x00 => dgCtrlWrite v x s
  | 0x01 => modPorts v.t (fun q => { q with
      dgOvr := q.dgOvr && !x.getLsbD 28
      dgEarly := q.dgEarly && !x.getLsbD 26
      dgBusyAll := q.dgBusyAll && !x.getLsbD 25 }) s
  | 0x02 => modPorts v.t (fun q => { q with dgLen := q.dgLen / 2 ^ 32 * 2 ^ 32 + x.toNat }) s
  | 0x03 => modPorts v.t (fun q => { q with dgLen := q.dgLen % 2 ^ 32 + x.toNat * 2 ^ 32 }) s
  | 0x04 => dgData v x s
  | 0x05 => modPorts v.t (fun q => { q with dgKeySlot := x.toNat % 256 }) s
  | 0x06 => modPorts v.t (fun q => { q with dgDest := x.toNat % 512 }) s
  | 0x07 => if x.toNat % 8 = 0 then modPorts v.t (fun q => { q with dgCtx := x.toNat }) s else s
  | _ => s

/-! ### What the engine does by itself (R425, R426, R431) -/

/-- A block of another context of the region's engine arrived before that of `x` (R428). -/
def arrivedBefore (s : State) (r : Nat) (x : DigestCtx) : Bool :=
  s.contexts.any fun c => decide (c.1 / 8 = r) && c.2.busy && decide (c.2.used < x.used)

/-- A block has been absorbed, the blocks of an engine in order of arrival; BUSY clears (R425, R428). A lane mismatch is
repeated on the engine of the next lit region (R502). -/
def execDigestBlockAbsorbed (r : RegionId) (ctx : Fin 8) (lanes : LaneCheck) (s : State) : Out :=
  .next (
    let key := ctxKey r.val ctx.val
    match Tab.get? s.contexts key with
    | none => s
    | some x =>
      if !x.busy || arrivedBefore s r.val x then s
      else
        let h := settledHash x
        let dgLen := match x.owner with
          | .task t => ((taskOf s t).map fun k => k.ports.dgLen).getD 0
          | .session _ => 0
        let s := setCtx key { x with
          hash := h
          busy := false
          finEqual := if x.finishing then some (decide (h.count = dgLen)) else none } s
        let s := laneCheck (digestSite r.val) (2 * nextLit s r.val + 1) lanes s
        if unitRetired s (digestSite r.val) then digestEngineOut r.val s else s)

/-- A result is available in DG_RESULT: READY and the flag (R426). -/
def dgFinish (t flag : Nat) (res : List Byte) (lenErr : Bool) (err : Nat) (s : State) : State :=
  setFlag t flag (modPorts t (fun p => { p with
    dgReady := true
    dgResult := res
    dgLenErr := p.dgLenErr || lenErr
    dgErr := err }) s)

/-- FINAL finishes (R426): a wrong length gives zeros; with TOKEY the result goes to a key slot, and READY follows its
durability (R431). -/
def execDigestFinalReady (r : RegionId) (ctx : Fin 8) (s : State) : Out :=
  .next (
    let key := ctxKey r.val ctx.val
    match Tab.get? s.contexts key with
    | none => s
    | some x =>
      match x.owner, x.finEqual with
      | .task t, some eq =>
        match taskOf s t with
        | none => s
        | some k =>
          if x.finishing = false ∨ x.busy = true ∨ k.ports.dgReady = true then s
          else if !eq then dgFinish t x.finFlag [] true 0 s
          else if x.hmac && !derivedOf s k.slice x.keySlot then dgFinish t x.finFlag [] false 0x1A s
          else
            let out := finishHash s x.alg x.hmac x.keySlot x.hash
            if !x.finTokey then dgFinish t x.finFlag out false 0 s
            else
              let new := bit x.finDest 8
              match keyDest s k.slice new (x.finDest % 256) with
              | .error e => dgFinish t x.finFlag [] false e s
              | .ok i =>
                let s := modKey i (fun q => { q with waitTask := some (t, x.finFlag) }) (writeKey i .derived k.slice out s)
                let s := setCtx key { x with finEqual := none } s
                if new then modTask t (fun k => { k with newKeys := k.newKeys ++ [i] }) s else s
      | _, _ => s)

/-- Firmware saves the least recently used context of an idle host session in a region whose engine is full (R437). -/
def execDigestSessionEvict (session : Nat) (s : State) : Out :=
  .next (match (Tab.get? s.sessions session).bind (·.ctx) with
    | none => s
    | some key =>
      let r := key / 8
      if (freeContext s r).isNone && decide (lruSession s (· = r) = some session) then saveSession session s else s)

/-! ### Host Digest (R438 to R440) -/

/-- The lit regions, a session's own first (R437). -/
def regionsFrom (s : State) (r : Nat) : List Nat :=
  if isLit s r then r :: (litRegions s).filter (· ≠ r) else litRegions s

/-- A context for a session command: a free one, else that of the least recently used host session; none while all are
held by tasks (R437). -/
def hostContext (s : State) (r : Nat) : Option (Nat × State) :=
  match (regionsFrom s r).findSome? (freeContext s) with
  | some k => some (k, s)
  | none =>
    match lruSession s (isLit s) with
    | none => none
    | some n => ((Tab.get? s.sessions n).bind (·.ctx)).map fun k => (k, saveSession n s)

/-- The fields that every phase shares are valid (R438), PHASE 6 and 7 not (R10); `first` for phases 0 and 1, `named` for
phases 2 to 4. -/
def digestFields (d : Cdw) (data : List Byte) (first named : Bool) : Bool :=
  let x := d.d11.toNat
  let ndt := d.d10.toNat
  decide (bits x 31 29 < 6 ∧ ndt ≤ 16777216 ∧ data.length = ndt)
    && decide (bits x 28 24 = 0 ∧ bits x 17 16 = 0 ∧ bits d.d14.toNat 31 17 = 0 ∧ d.d15 = 0)
    && (if first then decide (bits x 23 20 < 4) else decide (bits x 23 18 = 0 ∧ d.d12 = 0 ∧ d.d13 = 0))
    && (if named then decide (bits x 15 0 < 1024) else decide (bits x 15 0 = 0))

/-- DECLARED. -/
def declaredOf (d : Cdw) : Nat := d.d13.toNat * 2 ^ 32 + d.d12.toNat

/-- KEYSLOT and DSTSLOT are usable where they are used (R439, test 2). -/
def digestSlots (s : State) (sl : Nat) (hmac : Bool) (key : Nat) (tokey : Bool) (dest : Nat) : Bool :=
  (!hmac || derivedOf s sl key) && (!tokey || bit dest 8 || derivedOf s sl (dest % 256))

/-- The resources that a final result needs (R439, test 4). -/
def finalRoom (s : State) (sl : Nat) (tokey : Bool) (dest : Nat) : Bool :=
  if tokey then (match keyDest s sl (bit dest 8) (dest % 256) with
    | .ok _ => true
    | .error _ => false)
  else recordRoom s sl 1

/-- Delivers the digest of a phase 0 or 3 (R440): a key slot, whose durability completes the command, or a record. -/
def deliverDigest (h : Sub) (sl : Nat) (tokey : Bool) (dest : Nat) (out : List Byte) (s : State) : State :=
  if tokey then
    match keyDest s sl (bit dest 8) (dest % 256) with
    | .ok i => modKey i (fun q => { q with waitHost := some h }) (writeKey i .derived sl out s)
    | .error _ => refuse h (sVendor 0x87) s
  else
    let hd := newHandle s
    let s := fillRecord hd (recordBytes 3 0 [] out [] s.datum 0 false) (charge sl 1 (reserveRecord hd sl 1 s))
    complete h sOk hd out.length [] s

/-- DSTSLOT and NEW of CDW14, as DG_DEST holds them. -/
def destOf (d : Cdw) : Nat := flagBit (d.d14.getLsbD 16) 8 + bits d.d14.toNat 15 8

/-- Digest, phase 0: a whole message (R438 to R440). -/
def execDigestWhole (h : Sub) (d : Cdw) (data : List Byte) (s : State) : Out :=
  .next (
    let sl := actSlice s h
    let alg := bits d.d11.toNat 23 20
    let hmac := d.d11.getLsbD 19
    let tokey := d.d11.getLsbD 18
    let key := bits d.d14.toNat 7 0
    if !digestFields d data true false || !digestSlots s sl hmac key tokey (destOf d) then refuse h sField s
    else if data.length ≠ declaredOf d then refuse h (sVendor 0x89) s
    else if 1024 ≤ s.sessions.length ∨ ctxShare s sl ≤ ctxUsed s sl ∨ finalRoom s sl tokey (destOf d) = false then
      refuse h (sVendor 0x87) s
    else match hostContext s 0 with
      | none => s
      | some (_, s) =>
        let x := feedHash alg (startHash s alg hmac key) data
        deliverDigest h sl tokey (destOf d) (finishHash s alg hmac key x) (useKey hmac key alg s))

/-- A free session number: which one the spec leaves open (assumption 10). -/
def freeSession (s : State) : Option Nat :=
  let i := freeNat s % 1024
  (Tab.lowestFree s.sessions i (1024 - i)).or (Tab.lowestFree s.sessions 0 i)

/-- The context entry of a session. -/
def sessionCtx (q : DigestSession) (n now : Nat) : DigestCtx :=
  { owner := .session n, alg := q.alg, hmac := q.hmac, keySlot := q.keySlot, hash := q.hash, busy := false,
    finishing := false, used := now }

/-- Digest, phase 1: a session opens (R438 to R440). -/
def execDigestStart (h : Sub) (d : Cdw) (data : List Byte) (s : State) : Out :=
  .next (
    let sl := actSlice s h
    let alg := bits d.d11.toNat 23 20
    let hmac := d.d11.getLsbD 19
    let tokey := d.d11.getLsbD 18
    let key := bits d.d14.toNat 7 0
    if !digestFields d data true false || !digestSlots s sl hmac key tokey (destOf d) then refuse h sField s
    else match freeSession s with
      | none => refuse h (sVendor 0x87) s
      | some n =>
        if ctxShare s sl ≤ ctxUsed s sl then refuse h (sVendor 0x87) s
        else match hostContext s 0 with
          | none => s
          | some (k, s) =>
            let q : DigestSession := { h := h, slice := sl, alg := alg, hmac := hmac, tokey := tokey, declared := declaredOf d,
                                       keySlot := key, dest := destOf d, hash := feedHash alg (startHash s alg hmac key) data,
                                       region := k / 8, ctx := some k }
            let s := setCtx k (sessionCtx q n s.datum) { s with sessions := Tab.set s.sessions n q }
            complete h sOk n q.hash.count [] (drew 1 (useKey hmac key alg s)))

/-- A session that is open and of the slice. -/
def sessionFor (s : State) (sl n : Nat) : Option DigestSession :=
  (Tab.get? s.sessions n).bind fun q => if q.slice = sl then some q else none

/-- Closes a session and frees its context (R440). -/
def closeSession (n : Nat) (s : State) : State :=
  let s := saveSession n s
  { s with sessions := Tab.erase s.sessions n }

/-- The context of a session's next command: its own, else one that it may take (R433, R437). -/
def resumeContext (s : State) (q : DigestSession) : Option (Nat × State) :=
  match q.ctx with
  | some k => some (k, s)
  | none => hostContext s q.region

/-- The context share refuses a session that has to take a context again (R433, R439). -/
def shareRefuses (s : State) (sl : Nat) (q : DigestSession) : Bool :=
  q.ctx.isNone && decide (ctxShare s sl ≤ ctxUsed s sl)

/-- Digest, phase 2: more bytes of a session (R438 to R440). -/
def execDigestContinue (h : Sub) (d : Cdw) (data : List Byte) (s : State) : Out :=
  .next (
    let sl := actSlice s h
    let n := bits d.d11.toNat 15 0
    if !digestFields d data false true then refuse h sField s
    else match sessionFor s sl n with
      | none => refuse h sField s
      | some q =>
        if q.hmac && !derivedOf s sl q.keySlot then refuse h sField s
        else if q.declared < q.hash.count + data.length then refuse h (sVendor 0x89) (closeSession n s)
        else if shareRefuses s sl q then refuse h (sVendor 0x87) s
        else match resumeContext s q with
          | none => s
          | some (k, s) =>
            let q := { q with hash := feedHash q.alg q.hash data, region := k / 8, ctx := some k }
            complete h sOk n q.hash.count []
              (setCtx k (sessionCtx q n s.datum) { s with sessions := Tab.set s.sessions n q }))

/-- Digest, phase 3: the session's last bytes and its result (R438 to R440). -/
def execDigestFinal (h : Sub) (d : Cdw) (data : List Byte) (s : State) : Out :=
  .next (
    let sl := actSlice s h
    let n := bits d.d11.toNat 15 0
    if !digestFields d data false true then refuse h sField s
    else match sessionFor s sl n with
      | none => refuse h sField s
      | some q =>
        if !digestSlots s sl q.hmac q.keySlot q.tokey q.dest then refuse h sField s
        else if q.declared ≠ q.hash.count + data.length then refuse h (sVendor 0x89) (closeSession n s)
        else if shareRefuses s sl q || !finalRoom s sl q.tokey q.dest then refuse h (sVendor 0x87) s
        else match resumeContext s q with
          | none => s
          | some (_, s) =>
            let out := finishHash s q.alg q.hmac q.keySlot (feedHash q.alg q.hash data)
            deliverDigest h sl q.tokey q.dest out (closeSession n s))

/-- Digest, phase 4: the session is abandoned (R440). -/
def execDigestAbandon (h : Sub) (d : Cdw) (s : State) : Out :=
  .next (
    let n := bits d.d11.toNat 15 0
    if !digestFields d [] false true then refuse h sField s
    else match sessionFor s (actSlice s h) n with
      | none => refuse h sField s
      | some _ => completeOk h (closeSession n s))

/-- Digest, phase 5: a derived-key slot is erased (R439, R440, R445). -/
def execDigestEraseKeySlot (h : Sub) (d : Cdw) (s : State) : Out :=
  .next (
    let i := bits d.d14.toNat 15 8
    if !digestFields d [] false false || !derivedOf s (actSlice s h) i then refuse h sField s
    else completeOk h (eraseKey i s))

/-! ### Key store (R445 to R448) -/

/-- The system-area block that held an invalid wrapped copy has been erased (R445). -/
def execKeyCopyErase (slot : Nat) (s : State) : Out :=
  .next (if (keyOf s slot).stale then modKey slot (fun k => { k with stale := false }) s else s)

/-- KS_INFO (R447); a lost slot reads as free, with its owner (R446). -/
def ksInfo (k : KeySlot) : Word :=
  let typ := if k.lost then 0 else match k.typ with
    | .free => 0
    | .identity => 1
    | .xts => 2
    | .derived => 3
  BitVec.ofNat 32 (typ * 2 ^ 28 + flagBit k.durable 27 + k.owner % 512 * 2 ^ 18 + (if k.lost then 0 else k.bits % 1024))

/-- A slot that KS_CMD may name (R447). -/
def ksSlotOk (i : Nat) : Bool := decide (4 ≤ i ∧ i < 256)

/-- DONE with a status (R447). -/
def doneStat (st : Nat) : Word := BitVec.ofNat 32 (2 ^ 31 + st)

/-- Changes the shared firmware ports. -/
def modFw (f : FwPorts → FwPorts) (s : State) : State := { s with fwPorts := f s.fwPorts }

/-- The halves of an XTS key differ (R148). -/
def halvesDiffer (k : List Byte) : Bool := decide (k.take 32 ≠ k.drop 32)

/-- A key whose halves are equal, made one whose halves differ in their first bit. -/
def unequalHalves (k : List Byte) : List Byte :=
  if halvesDiffer k then k else ((k.headD 0) ^^^ 1#8) :: k.drop 1

/-- An XTS key from the DRBG: an output whose two halves are equal is rejected (R148, R443). The key accepted after 16
rejections is a free value among those the rule accepts (assumption 31). -/
def xtsKey (s : State) : List Byte × State :=
  let out := fun i : Nat => fit 64 (Config.drbg (s.drawn + i))
  let i := ((List.range 16).find? fun i => halvesDiffer (out i)).getD 15
  (unequalHalves (out i), drew (i + 1) s)

/-- KS_CMD OP 1: generates an XTS key in the selected slot (R447, R443). DONE follows its wrapped copies (R448). -/
def ksGenerateCmd (owner : Nat) (s : State) : State :=
  let i := s.fwPorts.ksSel
  if ksSlotOk i && decide ((keyOf s i).typ = .free) then
    let (key, s) := xtsKey s
    modFw (fun p => { p with ksStat := 0, ksBusy := some i }) (writeKey i .xts owner key s)
  else modFw (fun p => { p with ksStat := doneStat 0x1A }) s

/-- KS_CMD OP 2: erases the selected slot (R447, R445). -/
def ksEraseCmd (s : State) : State :=
  let i := s.fwPorts.ksSel
  if ksSlotOk i then modFw (fun p => { p with ksStat := doneStat 0 }) (eraseKey i s)
  else modFw (fun p => { p with ksStat := doneStat 0x1A }) s

/-- Reads of ports 0x0900 to 0x09FF, by offset (R447). -/
def ksPortRead (p : Nat) (s : State) : Word :=
  match p with
  | 0x00 => BitVec.ofNat 32 s.fwPorts.ksSel
  | 0x01 => ksInfo (keyOf s s.fwPorts.ksSel)
  | 0x02 => BitVec.ofNat 32 (keyOf s s.fwPorts.ksSel).gen
  | 0x04 => s.fwPorts.ksStat
  | _ => 0

/-- Writes of ports 0x0900 to 0x09FF, by offset (R447); an invalid OP has no effect (R10). -/
def ksPortWrite (p : Nat) (x : Word) (s : State) : State :=
  match p with
  | 0x00 => modFw (fun q => { q with ksSel := x.toNat % 256 }) s
  | 0x03 =>
    if bits x.toNat 31 28 = 1 ∧ bits x.toNat 8 0 ≤ 256 then ksGenerateCmd (bits x.toNat 8 0) s
    else if bits x.toNat 31 28 = 2 then ksEraseCmd s
    else s
  | _ => s

end Sys2Proof.Machine
end

