-- ==== Sys2Proof/Machine/Presence.lean ====
section
/-! DEFINITION. Physical presence (R536 to R540), the durability of key slots (R431, R445, R539) and the seal loop
(R541). -/

namespace Sys2Proof.Machine

/-- Dword 0 of Presence Arm (R536). -/
def presenceDword (s : State) : Nat :=
  let p := s.presence
  match p.state with
  | .idle => 0
  | .armed => ceilDiv (p.deadline - s.datum) 100000000 * 65536 + 1
  | .opened => ceilDiv (p.deadline - s.datum) 100000000 * 65536 + p.left % 16 * 256 + 2

/-- Completes a Presence Arm with the state after it (R536). -/
def presenceReply (h : Sub) (st : Status) (s : State) : State := complete h st (presenceDword s) 0 [] s

/-- NSID and the command dwords that are Rsvd are zero (R536). -/
def presenceFields (nsid : Nat) (d : Cdw) : Bool := decide (nsid = 0 ∧ d.d10.toNat < 4) && cdwZero { d with d10 := 0 }

/-- Presence Arm, ACTION 0 (R536): it arms, or restarts the arming period; while a window is open it changes nothing. It
counts in counter 0 (R529). -/
def execPresenceArm (h : Sub) (nsid : Nat) (d : Cdw) (s : State) : Out :=
  .next (
    if !presenceFields nsid d then presenceReply h sField s
    else
      let p := s.presence
      let s := bookCount 0 s
      presenceReply h sOk (if p.state = .opened then s
        else { s with presence := { p with state := .armed, deadline := s.datum + 3000000000, left := 0 } }))

/-- Closes a window or ends an arming period (R536, R537). -/
def closePresence (s : State) : State := { s with presence := { s.presence with state := .idle, left := 0 } }

/-- Presence Arm, ACTION 3 (R536). -/
def execPresenceClose (h : Sub) (nsid : Nat) (d : Cdw) (s : State) : Out :=
  .next (presenceReply h (if presenceFields nsid d then sOk else sField) (if presenceFields nsid d then closePresence s else s))

/-- Presence Arm, ACTION 2: it needs a window and the SERVICE_N jumper (R540). -/
def execDebugPortEnable (h : Sub) (nsid : Nat) (d : Cdw) (s : State) : Out :=
  .next (
    if !presenceFields nsid d then presenceReply h sField s
    else if !windowOpen s || !s.presence.serviceLow then presenceReply h (sVendor 0x85) s
    else
      let s := usePrivileged 8 s
      presenceReply h sOk { s with presence := { s.presence with debug := true } })

/-- The identity key's replacement (R539): a new key in slot 0, with a certificate signed by the old key while it is
usable, else by the new one. -/
def newIdentity (s : State) : State :=
  let key := fit 32 (Config.drbg s.drawn)
  let signer := (identityKey s).getD key
  drew 1 { writeKey 0 .identity 0 key s with certificate := Config.certificate key signer }

/-- Presence Arm, ACTION 1: the identity-key reset, complete once the key's wrapped copies are durable (R539). -/
def execIdentityKeyReset (h : Sub) (nsid : Nat) (d : Cdw) (s : State) : Out :=
  .next (
    if !presenceFields nsid d then presenceReply h sField s
    else if !windowOpen s then presenceReply h (sVendor 0x85) s
    else modKey 0 (fun k => { k with waitHost := some h }) (newIdentity (usePrivileged 7 s)))

/-- The wrapped copies of a slot are durable: the result of a FINAL with TOKEY is ready, a host command that waits
completes, and a KS_CMD is done (R431, R440, R448, R539). -/
def execDerivedKeyDurable (slot : Nat) (s : State) : Out :=
  .next (
    let k := keyOf s slot
    if k.typ = .free ∨ k.durable = true then s
    else
      let s := modKey slot (fun k => { k with durable := true, waitTask := none, waitHost := none }) s
      let s := if s.fwPorts.ksBusy = some slot then modFw (fun p => { p with ksBusy := none, ksStat := doneStat 0 }) s else s
      let s := match k.waitTask with
        | some (t, f) => dgFinish t f (toLe 1 slot) false 0 s
        | none => s
      match k.waitHost with
      | some h => if k.typ = .identity then presenceReply h sOk s else complete h sOk slot 0 [] s
      | none => s)

/-- PRESENCE_N has been settled low since `lowSince` without a break: the window opens once that has been 1 s, counted
from the Arm when the hold began before it, which must end within the arming period (R537). -/
def execPresenceWindowOpen (lowSince : Nat) (s : State) : Out :=
  .next (
    let p := s.presence
    let held := max lowSince (p.deadline - 3000000000) + 100000000
    if p.state = .armed ∧ held ≤ s.datum ∧ held ≤ p.deadline then
      bookCount 1 { s with presence := { p with state := .opened, deadline := s.datum + 12000000000, left := 8 } }
    else s)

/-- The arming period ends without a window (R536). -/
def execArmingPeriodExpiry (s : State) : Out :=
  .next (if s.presence.state = .armed ∧ s.presence.deadline ≤ s.datum then closePresence s else s)

/-- The window closes 120 s after it opened (R537). -/
def execPresenceWindowExpiry (s : State) : Out :=
  .next (if s.presence.state = .opened ∧ s.presence.deadline ≤ s.datum then closePresence s else s)

/-- The level of SERVICE_N: removal of the jumper disables the debug port (R540). -/
def execServiceNChange (low : Bool) (s : State) : Out :=
  .next { s with presence := { s.presence with serviceLow := low, debug := s.presence.debug && low } }

/-- The seal loop opens (R541): counter 9, extremes 54 and 55, the flags of log 0xC0, a class 0x37 entry and event
0x07. -/
def sealLoopOpened (s : State) : State :=
  let s := bookCount 9 s
  let n := Tab.getD s.book.counters 9 0
  let s := bookSet 55 n 0 (if Tab.has s.book.extremes 54 then s else bookSet 54 n 0 s)
  let s := { s with presence := { s.presence with sealNow := true, sealOpened := true } }
  recordNote { level := 5, cls := 0x37, site := chipUnit 14 } 7 s

/-- Every 10 ms SEAL_B is compared with the pattern on SEAL_A, which then changes: two mismatches in a row open the loop,
two matches close it (R541). -/
def execSealLoopCheck (b : Bool) (s : State) : Out :=
  .next (
    let p := s.presence
    if s.datum < p.sealAt then s
    else
      let same := b == p.sealA
      let bad := if same then 0 else p.mismatches + 1
      let good := if same then p.matched + 1 else 0
      let s := { s with presence := { p with sealA := !p.sealA, mismatches := bad, matched := good, sealAt := s.datum + 1000000 } }
      if !p.sealNow && decide (2 ≤ bad) then sealLoopOpened s
      else if p.sealNow && decide (2 ≤ good) then { s with presence := { s.presence with sealNow := false } }
      else s)

end Sys2Proof.Machine
end

