-- ==== Sys2Proof/Machine/Power.lean ====
section
/-! DEFINITION. What loss of VCORE and of VAON leaves (R131, R445, R449, R357, R413, R415, R139), entry into dump mode (R126)
and orderly power-down (R131, R481). -/

namespace Sys2Proof.Machine

/-- A namespace after loss of power: commands in flight are gone, and so are open streams; data, chain and seals stay. -/
def nsPowerOff (n : Namespace) : Namespace :=
  { n with
    deleting := none
    sealing := []
    streams := []
    streamsEnabled := false
    streamsAlloc := 0
    chain := { n.chain with forming := none, pending := n.chain.pending.map fun t => { t with waiter := none } } }

/-- A slice after loss of power: its record and allotments stay, its memory is zero-filled again (R449). -/
def slicePowerOff (x : Slice) : Slice := { x with dramUsed := 0, kaUsed := 0, common := [], pools := [] }

/-- A reservation after loss of power: its parameters stay (R139). -/
def resvPowerOff (r : Reservation) : Reservation :=
  { slice := r.slice, nsid := r.nsid, sid := r.sid, cls := r.cls, bw := r.bw, maxw := r.maxw, burst := r.burst,
    lbound := r.lbound, admitted := 0, bucket := bucketFull r.burst, bucketAt := 0 }

/-- The saved values of the features (R86); those in force are set again at start-up. The timestamp goes on (R104). -/
def featuresPowerOff (f : Features) : Features :=
  { arbSaved := f.arbSaved
    thresholdsSaved := f.thresholdsSaved
    coalSaved := f.coalSaved
    asyncSaved := f.asyncSaved
    graceSaved := f.graceSaved
    grainInUse := f.grainNext
    grainNext := f.grainNext
    scrubSaved := f.scrubSaved
    tsMs := f.tsMs
    tsDatum := f.tsDatum
    tsOrigin := f.tsOrigin }

/-- A key slot after loss of power. A wrapped copy that was being written is taken as written (assumption 22). -/
def keyPowerOff (k : KeySlot) : KeySlot :=
  { k with durable := decide (k.typ ≠ .free), cacheAlg := none, waitTask := none, waitHost := none, lost := false }

/-- Media state after loss of power: nothing is cached, page reads are gone; the log and the checkpoints lie on NAND
(R193). -/
def mediaPowerOff (m : Media) : Media :=
  { m with
    pages := (m.pages.filter fun p => p.2.place.isSome || p.2.lost).map fun p =>
      (p.1, { place := p.2.place, mediaSeq := p.2.mediaSeq, lost := p.2.lost })
    journal := []
    sbs := m.sbs.map fun b => (b.1, { b.2 with programming := [], filling := none })
    answered := []
    destageStopped := false
    adopted := []
    failedChannels := []
    dies := m.dies.map fun d => (d.1, { d.2 with stopped := false, outCount := 0, inCount := 0 }) }

/-- Everything that VCORE carries is lost; what lies on NAND, in NOR, in fuses and in the always-on domain stays. Content
of the buffer is on NAND (R126, R107). -/
def powerOff (s : State) : State :=
  let s := drainJournal (settleAll s.dump.active s)
  { s with
    copies := []
    regions := (s.regions.filter fun r => !r.2.involuntary.isEmpty).map fun r => (r.1, { involuntary := r.2.involuntary })
    domains := []
    powerQueue := []
    arbiters := []
    dispatched := []
    ledger := []
    late := 0
    vcore := {}
    base := {}
    ports := []
    features := featuresPowerOff s.features
    held := []
    decided := []
    writes := []
    turns := []
    lines := []
    holdUp := { vbank := s.holdUp.vbank, forbidden := s.holdUp.forbidden, latched := s.holdUp.latched }
    dump := { poweredDown := true, recovery := s.dump.recovery }
    resvs := s.resvs.map resvPowerOff
    namespaces := s.namespaces.map fun n => (n.1, nsPowerOff n.2)
    media := mediaPowerOff s.media
    dram := {}
    setU := []
    cores := []
    tasks := []
    gens := []
    flows := []
    poolTab := []
    invs := []
    waitingInvokes := []
    scans := []
    accounts := []
    results := []
    resultGens := []
    tables := []
    oldSets := []
    filters := []
    contexts := []
    sessions := []
    keys := s.keys.map fun k => (k.1, keyPowerOff k.2)
    slices := s.slices.map fun x => (x.1, slicePowerOff x.2)
    scrubMib := 0
    stu := []
    fwPorts := {}
    thermal := { s.thermal with inT1 := false, graceStart := none, level := 0, t2Blocks := [], temps := [] }
    supply := { s.supply with ps := 0, lastOperational := 0, held := [] }
    faults := { s.faults with retired := [], qmActive := 0, qm := Vector.replicate 2 0, qmRestoredAt := none }
    startup := { s.startup with done := false, stopped := false, waitingHot := false, tick0 := none, input := none,
                                regionsUp := false,
                                download := [], downloadLen := 0, activation := none, activationRegions := [] } }

/-- The power-down flush (R131, R532): it supersedes one under way and is complete before VCORE goes off. -/
def powerDownFlush (s : State) : State := finishFlush (startFlush 5 s)

/-- The lines that the dump has programmed, by namespace and quarter (R128). -/
def linesDumped (s : State) : List (Nat × Nat) :=
  (s.lines.filter fun l => (l.programmed.bind fun p => Tab.get? s.media.sbs (p / 2 ^ 24)).any (·.dump)).map
    fun l => (l.nsid, l.quarter)

/-- Records the end of a dump: DUMP record, longest dump, DIP_HIST (R126, R128, R130, R530, R531). -/
def dumpRecords (complete : Bool) (s : State) : State :=
  let us := (s.datum - s.dump.tick0) / 100
  let s := journalPut (.dump (if complete then .complete else .ended (linesDumped s))) s
  let s := if complete then bookMax 53 us 0 { s with dump := { s.dump with dumpMax := max s.dump.dumpMax us } } else s
  bookHist (2912 + 4 * vinBin s.dump.lowestVin) s

/-- Orderly power-down (R131): the dump is completed, the field book flushed, VCORE commanded off, HOLD_SEL released. -/
def powerDown (s : State) : State :=
  let s := if s.dump.active then drainJournal (dumpRecords true (settleAll true s)) else s
  powerOff (powerDownFlush s)

/-- The host commands of dump mode that wait: every operation that is not a conforming reserved write (R126, R127). -/
def holdForDump (w : WriteOp) : WriteOp := if w.reserved && w.conforming then w else { w with held := true }

/-- Dump mode is entered (R126, R130): HOLD_SEL, the reserve window, held writes, a flush, and no charging. -/
def startDump (s : State) : State :=
  let gone := (s.writes.filter fun w => !(w.reserved && w.conforming)).map fun w => (w.nsid, w.h)
  let s := gone.foldl (fun s p => unform p.1 p.2 s) s
  let d := s.dump
  let s := { s with
    writes := s.writes.map holdForDump
    holdUp := { s.holdUp with charging := false, testLoad := false }
    dump := { d with
      qualifying := none
      active := true
      tick0 := s.datum
      done := false
      holdSel := true
      windowOpen := true
      streamBytes := []
      lowestVin := s.supply.vin
      dumps := satAdd 32 d.dumps 1
      brownOut := false } }
  flushDue 2 (journalPut (.dump .entered) (bookCount 10 s))

end Sys2Proof.Machine
end

