-- ==== Sys2Proof/Machine/Envelope.lean ====
section
/-! DEFINITION. The baseline envelope (R41 to R46), stream reservations (R134 to R139), power states (R491 to R496), the
core supply (R36 to R39) and the power-off of idle cores (R57). -/

namespace Sys2Proof.Machine

/-! ### Limits of the power states (R37, R492) -/

/-- VCORE setpoint of a power state, mV (R37). -/
def psVset (ps : Nat) : Nat := [750, 700, 650, 600, 600].getD ps 600



/-- NAND interface rate, MT/s (R492). -/
def psRate (ps : Nat) : Nat := [2400, 1600, 800, 0, 0].getD ps 0



/-- Key-array lookups per bank, thousands per second (R492). -/
def psLookups (ps : Nat) : Nat := [62500, 31250, 15625, 0, 0].getD ps 0

/-! ### Terms of the baseline (R42) -/

/-- A lit-capable region. -/
def capable (s : State) (r : Nat) : Bool := decide ((region s r).state ≠ .retired)

/-- The least value of a term with one lit-capable region removed; `f 8` removes none (R42). -/
def worst (s : State) (f : Nat → Nat) : Nat := (((List.range 8).filter (capable s)).map f).foldl min (f 8)

/-- The regions that remain when `out` is removed. -/
def remaining (s : State) (out : Nat) : List Nat := (List.range 8).filter fun r => capable s r && decide (r ≠ out)

/-- Cores of a region that are not retired, at most the number of the power state. -/
def regionCores (s : State) (ps r : Nat) : Nat :=
  min (psCores ps) ((List.range 32).filter fun i =>
    !unitRetired s (coreSite (32 * r + i)) && !unitRetired s { kind := 1, index := 4 * r + i / 8 }).length

/-- Cores in service with the worst region removed. -/
def baseCores (s : State) (ps : Nat) : Nat := worst s fun out => ((remaining s out).map (regionCores s ps)).sum

/-- The channel engine of region `r` serves channel `ch` with region `out` removed. -/
def engineFit (s : State) (out r ch : Nat) : Bool :=
  capable s r && decide (r ≠ out) && !unitRetired s (engineSite r (ch % 4))

/-- Channels in service with region `out` removed: the alternate adopts (R42, R235). -/
def channelsWithout (s : State) (out : Nat) : List Nat :=
  (List.range 32).filter fun ch =>
    !s.media.failedChannels.contains ch && (engineFit s out (homeRegion ch) ch || engineFit s out (altRegion ch) ch)

/-- Program rate of the dies of a channel that may program at once, kB/s: the slowest are counted. -/
def channelProg (s : State) (ps ch : Nat) : Nat :=
  let rates := ((diesInService s).filter fun d => decide (d.1 / 32 = ch)).map fun d => d.2.progRate
  ((rates.mergeSort fun a b => decide (a ≤ b)).take (psDies ps)).sum

/-- Flash program capacity, MB/s, after the parity ratio. -/
def baseProg (s : State) (ps : Nat) : Nat :=
  worst s (fun out => ((channelsWithout s out).map (channelProg s ps)).sum)
    * (if anyPar2 s then 30 else 31) / 32 / 1000

/-- Baseline decode rate of a channel, MB/s (R225), at the interface rate of the power state. -/
def channelRead (s : State) (ps ch : Nat) : Nat :=
  match (diesInService s).find? fun d => decide (d.1 / 32 = ch) with
  | some d => min (min d.2.rateMts (psRate ps) * 4096 * 9 / (10 * max 1 d.2.codewordLen)) 2600
  | none => 0

/-- The region whose engine serves a channel with region `out` removed: the home region, else the alternate (R42, R235).
-/
def servingEngine (s : State) (out ch : Nat) : Nat :=
  if engineFit s out (homeRegion ch) ch then homeRegion ch else altRegion ch

/-- Each engine counts as the lesser of 2,600 MB/s and the sum of the rates of the channels it serves (R236). -/
def engineRead (s : State) (ps out r e : Nat) : Nat :=
  min 2600 (((channelsWithout s out).filter fun ch => decide (ch % 4 = e ∧ servingEngine s out ch = r)).map
    (channelRead s ps)).sum

/-- Flash read capacity, MB/s. -/
def baseRead (s : State) (ps : Nat) : Nat :=
  worst s fun out => ((List.range 32).map fun i => engineRead s ps out (i / 4) (i % 4)).sum

/-- DRAM capacity, MB/s: 70 % of the peak of each channel in service, halved (R42, R247). -/
def baseDram (s : State) : Nat :=
  (s.dram.channels.map fun c => if c.2.inService then c.2.rate * 4 * 7 / 10 else 0).sum / 2

/-- Capacity of an arbiter, MB/s: its baseline rate less one 512-byte transfer of blocking for each grant (R19, R42). -/
def arbiterCapacity (level : Nat) : Nat := Config.arbiterRate level - 512 * Config.arbiterGrants level / 1000000

/-- Arbiter capacity, MB/s: what the arbiters of the remaining regions carry together, and at most what the chip's and the
front end's do (R42). -/
def baseArbiter (s : State) : Nat :=
  min (worst s fun out => (remaining s out).length * arbiterCapacity 2) (min (arbiterCapacity 3) (arbiterCapacity 4))

/-- Key-array capacity, thousands of lookups per second. -/
def baseKeys (s : State) (ps : Nat) : Nat :=
  psLookups ps * worst s fun out =>
    ((List.range 32).filter fun k => (remaining s out).contains (k / 4) && !unitRetired s (bankSite k)).length

/-- ρ, the spare share at format (R202). -/
def spareRatio (s : State) : Rat :=
  let m := s.media
  ((dData (geometry s) m.nAtFormat : Int) - m.linkStore - m.tnvmcap : Int) / (max 1 m.tnvmcap : Nat)

/-- wa_pred (R202). -/
def waPred (s : State) : Rat :=
  let r := spareRatio s
  if r ≤ 0 then 1 else (1 + r) / (2 * r)

/-- Flash traffic for each byte written: wa_pred with the factor of wear levelling (R202). -/
def flashCost (s : State) : Rat := waPred s * 65 / 64

/-- Population of the flash, the index of its holdbacks: dies in service. -/
def diePopulation (s : State) : Nat := (diesInService s).length

/-! ### Holdbacks (R43, R229, R271) -/

/-- Traverse, MB/s: every burst of fitted DRAM once in the period of feature 0xC3 (R271). -/
def hbTraverse (s : State) : Nat := ceilDiv (s.dram.gib * 2 ^ 30) (s.features.scrub * 3600 * 1000000)

/-- Pages that a superblock's member blocks hold. -/
def sbPages (s : State) (b : Superblock) : Nat :=
  b.members.length * ((b.members.head?.bind fun d => Tab.get? s.media.dies d.1).map (·.pagesPerBlock)).getD 0

/-- Media scrub, MB/s: every page of every closed superblock once in 7 days (R229). -/
def hbScrub (s : State) : Nat :=
  ceilDiv (((s.media.sbs.filter fun b => decide (b.2.state = .closed)).map fun b => sbPages s b.2).sum * 16384)
    (7 * 86400 * 1000000)

/-- Core capacity after its holdbacks, million instructions/s: 20 % for best-effort work, and the core time of the others
(R43, R48). -/
def coreLeft (s : State) (ps : Nat) : Nat :=
  let cores := baseCores s ps
  cores * 900 * 8 / 10 - Config.coreHoldback cores s.features.scrub

/-- Write bandwidth that flash reads support: garbage collection reads what it moves, beside media scrub (R43, R202). -/
def readSupport (s : State) (ps : Nat) : Rat :=
  ((baseRead s ps - hbScrub s : Nat) : Rat) / max (1 / 1000) (flashCost s - 1)

/-- BASE_WBW of a power state (R43, R202): the least write bandwidth that a term supports after its holdbacks. A
non-operational state admits no reserved traffic (R493). -/
def wbwFor (s : State) (ps : Nat) : Nat :=
  if 3 ≤ ps then 0
  else
    let flash := ((baseProg s ps - Config.dumpFlash (diePopulation s) : Nat) / flashCost s : Rat).floor.toNat
    let dram := baseDram s - hbTraverse s - Config.dumpDram s.dram.gib
    min (min (min flash (readSupport s ps).floor.toNat) dram)
      (min (baseArbiter s * 8 / 10) (Config.writeSupport (coreLeft s ps) (baseKeys s ps)))

/-- The baseline of a power state at the present datum. -/
def computeBase (s : State) (trigger ps : Nat) : Baseline :=
  let cores := baseCores s ps
  let w := wbwFor s ps
  { s.base with
    trigger := trigger
    computed := s.datum
    coreTerm := cores * 900
    flashProg := baseProg s ps
    flashRead := baseRead s ps
    dram := baseDram s
    arbiter := baseArbiter s
    keyArray := baseKeys s ps
    baseWbw := w
    baseCore := coreLeft s ps
    hbGc := ((w : Rat) * (flashCost s - 1)).floor.toNat }

/-! ### Reservations (R134 to R139) -/

/-- BW of the admitted reservations, kB/s. -/
def resvTotal (s : State) : Nat := (s.resvs.map (·.bw)).sum

/-- BW of the admitted reservations of a slice, kB/s. -/
def resvOfSlice (s : State) (sl : Nat) : Nat := ((s.resvs.filter fun r => decide (r.slice = sl)).map (·.bw)).sum

/-- The unreserved part of every tenant slice's share, kB/s (R135). -/
def unreservedShares (s : State) : Nat :=
  ((tenants s).map fun p => p.2.streamBw * 1000 - resvOfSlice s p.1).sum

/-- The condition of R46. -/
def overBase (s : State) : Bool := decide (s.base.baseWbw * 1000 < resvTotal s)

/-- Bandwidth admissible to an issuer under test 5, kB/s (R135). -/
def admissible (s : State) (sl : Nat) : Nat :=
  let free := s.base.baseWbw * 1000 - resvTotal s
  if sl = 0 then free - unreservedShares s else free

/-- REASON and its figure (R136). -/
def reserveReason (reason figure : Nat) : Nat := reason * 2 ^ 24 + min figure (2 ^ 24 - 1)

/-- Judges a Stream Reserve (R135): the status and Dword 0 of a refusal. -/
def reserveRefusal (s : State) (q : ReserveReq) : Option (Status × Nat) :=
  let floor := latencyFloor s.holdUp.writeThrough q.maxw
  let bursts := burstSum s + q.burst
  if q.slice ≠ 0 ∧ (sliceOf s q.slice).streamBw * 1000 < resvOfSlice s q.slice + q.bw then some (sVendor 0x87, 0)
  else if (resvOf s q.nsid q.sid).isSome then some (sVendor 0x8E, reserveReason 6 0)
  else if 4096 ≤ s.resvs.length then some (sVendor 0x8E, reserveReason 3 0)
  else if overBase s then some (sVendor 0x8E, reserveReason 5 0)
  else if admissible s q.slice < q.bw then some (sVendor 0x8E, reserveReason 1 (admissible s q.slice / 10))
  else if q.lbound < floor then some (sVendor 0x8E, reserveReason 2 floor)
  else if limitB s < hbDip s + dipHoldback q.bw q.burst + bursts + 67108864 then some (sVendor 0x8E, reserveReason 4 0)
  else none

/-- The reservation of an admitted request: its bucket is full (R142). -/
def admitted (q : ReserveReq) (now : Nat) : Reservation :=
  { slice := q.slice, nsid := q.nsid, sid := q.sid, cls := q.cls, bw := q.bw, maxw := q.maxw, burst := q.burst,
    lbound := q.lbound, admitted := now, bucket := bucketFull q.burst, bucketAt := now }

/-- Judges a Stream Reserve and admits it (R135 to R137). -/
def judgeReserve (h : Sub) (q : ReserveReq) (s : State) : State :=
  match reserveRefusal s q with
  | some (st, dw) => complete h st dw 0 [] s
  | none =>
    let s := journalPut (.stream q.nsid q.sid .admitted) { s with resvs := s.resvs ++ [admitted q s.datum], resvGen := s.resvGen + 1 }
    judgeWt (complete h sOk q.sid 0 [] s)

/-- The request of a parameter block (R134). -/
def reserveReq (sl nsid : Nat) (d : Cdw) (b : List Byte) : ReserveReq :=
  { slice := sl, nsid := nsid, sid := bits d.d10.toNat 15 0, bw := field b 0 4, maxw := field b 4 4, burst := field b 8 4,
    lbound := field b 12 4, cls := field b 16 1 }

/-- The fields are within their ranges; MAXW is judged in the namespace's LBA size (R134). -/
def reserveFields (s : State) (d : Cdw) (b : List Byte) (q : ReserveReq) : Bool :=
  let lba := ((nsOf s q.nsid).map blockBytes).getD 512
  decide (1 ≤ q.sid ∧ bits d.d10.toNat 31 16 = 0 ∧ { d with d10 := 0 } = ({} : Cdw)
    ∧ 1 ≤ q.bw ∧ q.bw ≤ 4000000 ∧ lba ≤ q.maxw ∧ q.maxw ≤ 4194304 ∧ q.maxw % lba = 0
    ∧ q.maxw ≤ q.burst ∧ q.burst ≤ 16777216 ∧ 1 ≤ q.lbound ∧ q.lbound ≤ 1000000 ∧ q.cls < 8) && zeroAt b 17 47

/-- A namespace that the slice owns. -/
def ownsNs (s : State) (sl nsid : Nat) : Bool :=
  match nsOf s nsid with
  | some n => decide (n.slice = sl) && n.deleting.isNone
  | none => false

/-- Stream Reserve for a slice (R134, R45). -/
def streamReserve (h : Sub) (sl nsid : Nat) (d : Cdw) (data : List Byte) (s : State) : State :=
  let b := fit 64 data
  let q := reserveReq sl nsid d b
  if !reserveFields s d b q then refuse h sField s
  else if !ownsNs s sl nsid then refuse h sNamespace s
  else if s.base.running then { s with base := { s.base with held := s.base.held ++ [.reserve h q] } }
  else judgeReserve h q s

/-- Stream Reserve (R134). -/
def execStreamReserve (h : Sub) (nsid : Nat) (d : Cdw) (data : List Byte) (s : State) : Out :=
  .next (streamReserve h (actSlice s h) nsid d data s)

/-- Ends reservations (R138, R139). -/
def dropResvs (p : Reservation → Bool) (s : State) : State :=
  if s.resvs.any p then
    judgeWt { s with resvs := s.resvs.filter fun r => !p r, resvGen := s.resvGen + 1 }
  else s

/-- Ends reservations without a command, each with its STREAM record (R139, R189). -/
def endResvs (p : Reservation → Bool) (s : State) : State :=
  (s.resvs.filter p).foldl (fun s r => journalPut (.stream r.nsid r.sid .ended) s) (dropResvs p s)

/-- Stream Release for a slice (R138). -/
def streamRelease (h : Sub) (sl nsid : Nat) (d : Cdw) (s : State) : State :=
  let sid := bits d.d10.toNat 15 0
  if sid = 0 ∨ bits d.d10.toNat 31 16 ≠ 0 ∨ { d with d10 := 0 } ≠ ({} : Cdw) then refuse h sField s
  else if !ownsNs s sl nsid then refuse h sNamespace s
  else if (resvOf s nsid sid).isNone then refuse h sField s
  else completeOk h (journalPut (.stream nsid sid .released) (dropResvs (fun r => decide (r.nsid = nsid ∧ r.sid = sid)) s))

/-- Stream Release (R138). -/
def execStreamRelease (h : Sub) (nsid : Nat) (d : Cdw) (s : State) : Out :=
  .next (streamRelease h (actSlice s h) nsid d s)

/-! ### Power states (R493 to R496) -/

/-- The effective state: the lowest-numbered request of the ports that are present (R496). -/
def effectivePs (s : State) : Nat :=
  match (s.ports.filter fun p => p.2.present).map fun p => p.2.reqPs with
  | [] => 0
  | x :: xs => xs.foldl min x

/-- A port's requested state. -/
def setReqPs (p : PortId) (ps : Nat) (s : State) : State := setPort s p { portOf s p with reqPs := ps }

/-- Admitted reservations pass tests 4 and 5 of R135 against a baseline (R493). -/
def resvsFit (s : State) (wbw : Nat) : Bool :=
  decide (resvTotal s ≤ wbw * 1000 ∧ (resvOfSlice s 0 = 0 ∨ resvTotal s + unreservedShares s ≤ wbw * 1000))

/-- Domains of a region that go off in PS3: core cells, channel engines, key-array banks, hasher, digest engine (R494). -/
def ps3Domains : List Nat := List.range 32 ++ (List.range 10).map (· + 36)

/-- Switches domains off for a non-operational state (R494), their handshakes first (R60); host digest sessions are saved
before (R437). -/
def domainsOff (ps : Nat) (s : State) : State :=
  let s := (s.sessions.map (·.1)).foldl (fun s n => saveSession n s) s
  if ps = 3 then
    (List.range 8).foldl (fun s r => ps3Domains.foldl (fun s i => switchOff r i s) s) s
  else
    { toSpacer (fun t => (siteDomain t).isSome) s with
      domains := []
      powerQueue := []
      regions := s.regions.map (fun r => (r.1, { r.2 with powered := false }))
      dram := { s.dram with
        selfRefresh := true
        channels := s.dram.channels.map fun c =>
          (c.1, { c.2 with tables := [], waking := true, zqDue := true, oscDue := true }) } }

/-- Domain `i` of a region belongs to a block that is stopped at T2 (R478). -/
def blockStopped (s : State) (r i : Nat) : Bool :=
  let b := if i < 32 then some (4 * r + i / 8) else if i < 36 then some (4 * r + i - 32) else none
  s.thermal.t2Blocks.any fun x => decide (some x.1 = b)

/-- The domains of every region that is neither in umbra nor retired power up again, through the places of R58, but for
blocks stopped at T2 (R494). -/
def domainsOn (s : State) : State :=
  let rs := (List.range 8).filter fun r => decide ((region s r).state = .lit ∨ (region s r).state = .penumbra)
  askPower ((rs.map fun r => (powerOrder r).filter fun k =>
      decide (domainState s r (k % 47) = .off) && !blockStopped s r (k % 47)).flatten)
    { s with dram := { s.dram with
      selfRefresh := false
      channels := s.dram.channels.map fun c => (c.1, { c.2 with refreshAt := s.datum, windowAt := s.datum }) } }

/-- The device takes effective state `e`, with its baseline (R493, R494). -/
def takePs (e : Nat) (s : State) : State :=
  let was := s.supply.ps
  let s := if 3 ≤ e then domainsOff e (checkpoint (settleAll false s))
           else if 3 ≤ was then domainsOn s else s
  { s with
    supply := { s.supply with ps := e, lastOperational := if e < 3 then e else s.supply.lastOperational }
    base := computeBase s 2 e }

/-- Commands and tasks that entry to a non-operational state waits for (R494): all but this request, other requests like
it and Asynchronous Event Requests. -/
def quietFor (s : State) (h : Sub) : Bool :=
  let aer := fun x : Sub => s.ports.any fun p => p.2.aers.contains x
  let own := fun x : Sub => decide (x = h) || s.supply.held.any fun q => decide (q.1 = x)
  s.writes.isEmpty && s.lines.all (fun l => l.programmed.isNone) && !(s.tasks.any fun t => !t.2.fw)
    && s.held.all fun c => own c.h || aer c.h || s.decided.any fun x => decide (x.h = c.h)

/-- Judges a power request (R493, R496). -/
def judgePower (h : Sub) (ps : Nat) (s : State) : State :=
  let hold := { s with supply := { s.supply with held := s.supply.held ++ [(h, ps)] } }
  if s.dump.active || s.dump.brownOut then hold
  else
    let s' := setReqPs h.port ps s
    let e := effectivePs s'
    if e = s.supply.ps then completeOk h s'
    else if 3 ≤ e then
      if !s.resvs.isEmpty then refuse h (sVendor 0x8A) s
      else if quietFor s h then completeOk h (takePs e s')
      else hold
    else if resvsFit s (wbwFor s e) then completeOk h (takePs e s')
    else refuse h (sVendor 0x8A) s

/-- A power request is received: it waits for a computation that runs (R45). -/
def powerRequest (h : Sub) (ps : Nat) (s : State) : State :=
  if s.base.running then { s with base := { s.base with held := s.base.held ++ [.power h ps] } }
  else judgePower h ps s

/-- Judges the power requests that were held (R493, R494). -/
def retryPower (s : State) : State :=
  if s.dump.active || s.dump.brownOut || s.base.running then s
  else s.supply.held.foldl (fun s q => judgePower q.1 q.2 s) { s with supply := { s.supply with held := [] } }

/-- An entry to a non-operational state is under way: no I/O command is fetched (R494). -/
def enteringLowPower (s : State) : Bool := s.supply.held.any fun q => decide (3 ≤ q.2)

/-- Takes the effective state of the ports' requests (R496). -/
def settlePs (s : State) : State :=
  let e := effectivePs s
  if e = s.supply.ps then s else takePs e s

/-- A port's request falls to PS0 (R495, R496); a computation that runs holds the change (R45). -/
def portPs0 (p : PortId) (s : State) : State :=
  let s := setReqPs p 0 s
  if s.supply.ps ≤ effectivePs s then s
  else if s.base.running then { s with base := { s.base with held := s.base.held ++ [.ps0 p] } }
  else settlePs s

/-- A port asks for the last operational state (R495). -/
def exitPs (p : PortId) (s : State) : State :=
  if s.supply.ps < 3 then s else settlePs (setReqPs p s.supply.lastOperational s)

/-- An I/O doorbell, or an admin command that R494 does not except, returns the device to its last operational state; a
computation that runs holds the change (R45). -/
def execPowerStateExit (port : PortId) (s : State) : Out :=
  .next (if s.supply.ps < 3 then s
    else if s.base.running then { s with base := { s.base with held := s.base.held ++ [.exit port] } }
    else exitPs port s)

/-! ### Baseline computation (R44 to R46) -/

/-- A trigger of R44. -/
def execBaselineComputationStart (trigger : Nat) (s : State) : Out := .next (baselineTrigger trigger s)

/-- Judges one request that was held during a computation (R45). -/
def judgeHeld (s : State) (q : HeldJudge) : State :=
  match q with
  | .reserve h q => judgeReserve h q s
  | .power h ps => judgePower h ps s
  | .exit p => exitPs p s
  | .ps0 _ => settlePs s

/-- The computation completes; R46 is judged, and what was held is judged in order of receipt (R45, R46). -/
def baselineDone (s : State) : State :=
  if !s.base.running then s
  else
    let held := s.base.held
    let s := { s with base := { computeBase s s.base.trigger s.supply.ps with running := false, held := [] } }
    let s := if overBase s then atRiskNotice 46 (chipUnit 16) 0 s else s
    retryPower (held.foldl judgeHeld s)

/-- The computation completes (R45, R46). -/
def execBaselineComputationDone (s : State) : Out := .next (baselineDone s)

/-! ### The core supply (R36 to R39, R476) -/

/-- Setpoint that power state and enforcement ask for (R37, R476); a thermal trip asks for 0.60 V (R481). -/
def vcoreTarget (s : State) : Nat :=
  if s.thermal.t3 then 600 else max 600 (psVset s.supply.ps - 20 * s.thermal.level)

/-- Highest setpoint for a raise that pace asks for: 0.85 V, or the enforced setpoint (R37, R476). -/
def vcoreCeiling (s : State) : Nat := if 0 < s.thermal.level then vcoreTarget s else 850

/-- A lit region's pace has fallen within 5 % of the pace that the admitted deadline work requires (R37). -/
def raiseDue (s : State) : Bool :=
  !s.resvs.isEmpty && (litRegions s).any fun r =>
    decide ((region s r).pace * 100 ≤ Config.requiredPace (resvTotal s) s.base.baseWbw * 105)

/-- The next setpoint, at most 10 mV away (R36): up while pace asks for it, else toward what power state and enforcement
ask for. The spec does not say when a raised setpoint falls back: here at the next step that finds pace sufficient
(DESIGN CHOICE, assumption 126). -/
def vcoreNext (s : State) : Nat :=
  let v := s.vcore.vset
  let t := if raiseDue s && !s.thermal.t3 then max v (min (v + 10) (vcoreCeiling s)) else vcoreTarget s
  if v < t then min t (v + 10) else max t (v - 10)

/-- A region's trim under a setpoint: its supply stays at or above 0.60 V (R39). -/
def trimUnder (vset : Nat) (g : Region) : Region := { g with trim := min g.trim ((vset - 600) / 5) }

/-- A step may be commanded: 100 µs after the last one, by a supervisor that has not stopped, and after a failed
readback only toward 0.60 V for a trip (R36, R38, R507). -/
def vcoreMayStep (s : State) : Bool :=
  s.vcore.enabled && decide (s.vcore.lastCmd + 10000 ≤ s.datum) && ((!s.vcore.frozen && !s.faults.supStopped) || s.thermal.t3)

/-- The supervisor writes VOUT_COMMAND: trims are lowered first, and a readback falls due (R36 to R39). -/
def execVcoreStep (s : State) : Out :=
  .next (
    let v := vcoreNext s
    if vcoreMayStep s && decide (v ≠ s.vcore.vset) then
      { s with
        regions := s.regions.map fun r => (r.1, trimUnder v r.2)
        vcore := { s.vcore with vset := v, lastCmd := s.datum, checks := s.vcore.checks ++ [(s.datum + 20000, false)] } }
    else s)

/-- READ_VOUT 200 µs after a write, against the setpoint (R38): a difference above 15 mV, or no acknowledgement, repeats
the write once; a repeat that fails is a detected fault, after which the setpoint stays. -/
def execVcoreReadbackCheck (mv : Nat) (ack : Bool) (s : State) : Out :=
  .next (
    let v := s.vcore
    let far := decide (v.vset + 15 < mv ∨ mv + 15 < v.vset)
    match v.checks with
    | [] => s
    | (d, repeated) :: rest =>
      if s.datum < d then s
      else
        let read := if ack then mv else v.vread
        if ack && !far then { s with vcore := { v with vread := read, checks := rest } }
        else if !repeated then
          { s with vcore := { v with vread := read, checks := rest ++ [(s.datum + 20000, true)], lastCmd := s.datum } }
        else
          recordDetected { level := 3, cls := 0x0D, site := chipUnit 9, aux0 := v.vset, aux1 := read }
            { s with vcore := { v with vread := read, checks := rest, frozen := true } })

/-! ### Power domains (R57, R58) -/

/-- A handshake of a unit is open: an arbiter has granted it. -/
def openGrant (s : State) (t : Site) : Bool :=
  s.arbiters.any fun a => match a.2.granted with
    | some q => decide (q.unit = t)
    | none => false

/-- The scheduler powers off a core cell that has been idle for 100 µs, while no handshake to it is open (R57). -/
def execCoreCellPowerOff (c : CoreId) (s : State) : Out :=
  .next (
    let u := coreOf s c.val
    if u.run.isNone && decide (u.idleSince + 10000 ≤ s.datum) && domainOn s (regionOf c) (c.val % 32)
        && !openGrant s (coreSite c.val) then
      switchOff (regionOf c) (c.val % 32) s
    else s)

end Sys2Proof.Machine
end

