-- ==== Sys2Proof/Machine/Dips.lean ====
section
/-! DEFINITION. The supply events (R126 to R132): qualification of the warning, dump mode, the reserve window, brown-out
service, recovery, power-down and the restart of the supervisor. -/

namespace Sys2Proof.Machine

/-- VIN_SENSE falls during a Hold-up Test's measurement, before V0 is sampled too: the test completes with OUTCOME 0b11; a
scheduled measurement keeps waiting (R125). -/
def endTests (s : State) : State :=
  let s := abandonMeasurement false 3 s
  if s.holdUp.testers.isEmpty then s
  else
    answerTests 3 false (limitB s) (if s.holdUp.scheduled then s else { s with holdUp := { s.holdUp with step := .idle } })

/-- VIN_SENSE first falls below the warning level (R126): the charger and any test discharge stop, a measurement that
runs is abandoned (R118), and the 200 ticks of the qualification start. In dump mode and in brown-out service it is no
further warning (R129). -/
def execVinWarnFall (s : State) : Out :=
  .next (
    if s.dump.active || s.dump.brownOut || s.dump.poweredDown || s.dump.qualifying.isSome || !s.vaon then s
    else
      let s := endTests s
      { s with holdUp := { s.holdUp with charging := false, testLoad := false }
               dump := { s.dump with qualifying := some s.datum } })

/-- VIN_SENSE rises again before the qualification completes: no warning is detected and the charger restarts
(R126). -/
def execVinWarnRise (s : State) : Out :=
  .next (if s.dump.qualifying.isSome then startCharger { s with dump := { s.dump with qualifying := none } } else s)

/-- VIN_SENSE has stayed below the warning level for 200 ticks: tick 0 of the dump (R126). -/
def execPowerFailWarning (s : State) : Out :=
  .next (match s.dump.qualifying with
    | some d => if d + 200 ≤ s.datum then startDump s else s
    | none => s)

/-- The reserve window closes 2,000,000 ticks after tick 0 (R127): from now on the reserved writes that are held are
held after it (R145). -/
def execReserveWindowClose (s : State) : Out :=
  .next (
    if s.dump.active && s.dump.windowOpen && decide (s.dump.tick0 + 2000000 ≤ s.datum) then
      let late := fun w : WriteOp =>
        if w.held && w.reserved then { w with heldAfterWindow := w.heldAfterWindow.or (some s.datum) } else w
      { s with dump := { s.dump with windowOpen := false }, writes := s.writes.map late }
    else s)

/-- Superblocks that the dump opened take no further stripe (R128). -/
def closeDumpSbs (s : State) : State :=
  ((s.media.sbs.filter fun b => b.2.dump && decide (b.2.state = .opened)).map (·.1)).foldl (fun s sb => setSbState sb .closed s) s

/-- Brown-out service begins (R128, R132): HOLD_SEL is released, the charger restarts and every write is served
write-through. -/
def startBrownOut (s : State) : State :=
  let s := { s with dump := { s.dump with active := false, done := true, holdSel := false, windowOpen := false, brownOut := true } }
  releaseHeld (judgeWt (startCharger s))

/-- Everything acknowledged is on NAND, the journal closed and the dump-complete record programmed (R126, R128): the
pool is filled again (R207); after a thermal trip the device powers down (R481), else brown-out service begins. -/
def execDumpComplete (s : State) : Out :=
  .next (
    if !s.dump.active then s
    else
      let s := refillPool (drainJournal (dumpRecords true (closeDumpSbs (settleAll true s))))
      if s.thermal.t3 then powerDown { s with dump := { s.dump with active := false } } else startBrownOut s)

/-- Writes that are in write-through when buffered operation resumes complete in write-through (R132). -/
def keepWriteThrough (s : State) : State :=
  { s with writes := s.writes.map fun w => if w.checked && !w.held then { w with wt := true } else w }

/-- VIN has stayed above warning + 0.3 V for 20 ms (R128): dump mode or brown-out service ends, held commands go on in
their order, and power requests that were held are judged (R493). A thermal trip goes on to its power-down (R481). -/
def execVinRecovery (s : State) : Out :=
  .next (match s.dump.recovery with
    | none => s
    | some d =>
      if s.datum < d + 2000000 ∨ (s.dump.active || s.dump.brownOut) = false ∨ s.thermal.t3 = true then s
      else
        let s := if s.dump.active then refillPool (closeDumpSbs (dumpRecords false s)) else keepWriteThrough s
        let u := s.dump
        let s := bookCount 11 { s with dump := { u with
          active := false
          brownOut := false
          holdSel := false
          windowOpen := false
          recovered := satAdd 32 u.recovered 1 } }
        retryPower (releaseHeld (judgeWt (startCharger s))))

/-- The recovery comparator changes (R490): a fall starts the wait of 20 ms again (R128). -/
def execRecoveryComparatorChange (above : Bool) (s : State) : Out :=
  .next { s with dump := { s.dump with recovery := if above then s.dump.recovery.or (some s.datum) else none } }

/-- VIN reaches the reset level: orderly power-down (R131). -/
def execVinResetReached (s : State) : Out :=
  .next (if s.vaon && !s.dump.poweredDown then powerDown s else s)

/-- After a power-down, with VAON present and VIN above warning + 0.3 V for 20 ms, the supervisor starts the device as
after power-on (R131); a latched trip keeps it down until VAON is lost (R481; DEDUCED, assumption 23). -/
def execSupervisorRestart (perstAsserted : Bool) (s : State) : Out :=
  .next (match s.dump.recovery with
    | none => s
    | some d =>
      if s.vaon && s.dump.poweredDown && !s.thermal.t3 && decide (d + 2000000 ≤ s.datum) then
        { s with
          pcc := satAdd 32 s.pcc 1
          dump := { s.dump with poweredDown := false }
          startup := { s.startup with tick0 := if perstAsserted then none else some s.datum } }
      else s)

end Sys2Proof.Machine
end

