-- ==== Sys2Proof/Machine/DramCode.lean ====
section
/-! DEFINITION. Where a burst lies in DRAM (R248 to R251), the code that protects it (R264 to R266), and that of an SRAM
word (R267). -/

namespace Sys2Proof.Machine

/-! ### Placement (R248 to R251) -/

/-- The organisation of the devices: bank groups, banks of a group, ranks, and the width of column bits [10:4] (R251). -/
structure DramOrg where
  groups : Nat
  banks : Nat
  ranks : Nat
  cols : Nat
  deriving DecidableEq, Repr

/-- The organisation by device width and density, as JESD79-5 has it (R245, R251; PRESUMED, assumption 151). -/
def dramOrg (s : State) : DramOrg :=
  match s.startup.strap with
  | none => { groups := 8, banks := 4, ranks := 1, cols := 6 }
  | some t => { groups := if t.drWidth = 16 then 4 else 8, banks := if t.drDensity = 8 then 2 else 4, ranks := max 1 t.drRanks
                cols := if t.drWidth = 4 then 7 else 6 }

/-- Bytes of one channel (R245). -/
def dramChannelBytes (s : State) : Nat := s.dram.gib / 8 * 1073741824

/-- A burst's place in the devices (R251, R264). -/
structure DramLoc where
  ch : Nat
  sub : Nat
  rank : Nat
  group : Nat
  bank : Nat
  row : Nat
  col : Nat
  deriving DecidableEq, Repr

/-- Takes the low digit of a number in base `n`. -/
def lowDigit (n x : Nat) : Nat × Nat := (x % max 1 n, x / max 1 n)

/-- Decodes the offset of a burst in a channel: subchannel, bank group, bank, rank, column, row, from low bits to high
(R251). -/
def burstLoc (o : DramOrg) (ch offset : Nat) : DramLoc :=
  let sub := lowDigit 2 (offset / 64)
  let group := lowDigit o.groups sub.2
  let bank := lowDigit o.banks group.2
  let rank := lowDigit o.ranks bank.2
  let col := lowDigit (2 ^ o.cols) rank.2
  { ch := ch, sub := sub.1, rank := rank.1, group := group.1, bank := bank.1, row := col.2, col := col.1 }

/-- The subchannel of a burst of a channel (R251). -/
def subOf (offset : Nat) : Nat := offset / 64 % 2

/-- Key of a bank: (rank × 2 + subchannel) × 32 + bank group × 4 + bank. -/
def bankKeyOf (l : DramLoc) : Nat := (l.rank * 2 + l.sub) * 32 + l.group * 4 + l.bank

/-- The interleave grain in bytes (R86, R252). -/
def grainBytes (s : State) : Nat := 2 ^ s.features.grainInUse

/-- Where address `a` falls over `n` members: the member, and the offset from its base (R250). -/
def interleave (g n a : Nat) : Nat × Nat := (a / g % max 1 n, a / (g * max 1 n) * g + a % g)

/-- Pairs (n, n + 4) of which no channel has failed (R249, R274). -/
def wholePairs (s : State) : List Nat := (List.range 4).filter fun n => !s.dram.brokenPairs.contains n

/-- The channel and offset of a place; `second` is the copy in DCH4 to DCH7 of sets W and S (R249, R250). -/
def placeAt (s : State) (second : Bool) : DramPlace → Option (Nat × Nat)
  | .setW line off =>
    if line < 524288 ∧ off < 4096 then some (line % 4 + (if second then 4 else 0), line / 4 * 4096 + off) else none
  | .setS a =>
    let ps := wholePairs s
    let m := interleave (grainBytes s) ps.length a
    if m.2 < 0x10000000 then ps[m.1]?.map fun c => (c + (if second then 4 else 0), 0x20000000 + m.2) else none
  | .setU e a => (s.dram.extents[e]?).bind fun x =>
    let m := interleave (grainBytes s) x.length a
    if m.2 < 67108864 then x[m.1]?.map fun c => (c.1, c.2 + m.2) else none

/-- An extent over the channels in service, in ascending order: 64 MiB of set U on each, above what it has given (R250).
-/
def newExtent (s : State) : List (Nat × Nat) :=
  ((List.range 8).filter fun c => (Tab.getD s.dram.channels c {}).inService).filterMap fun c =>
    let taken := (s.dram.extents.flatMap fun x => x.filter fun m => decide (m.1 = c)).length
    let base := 0x30000000 + taken * 67108864
    if base + 67108864 ≤ dramChannelBytes s then some (c, base) else none

/-! ### GF(2⁸) (R264) -/

/-- Twice a value: the field polynomial is x⁸ + x⁴ + x³ + x² + 1. -/
def gfDouble (a : Byte) : Byte := (a <<< 1) ^^^ (if a.msb then 0x1D#8 else 0#8)

/-- Product. -/
def gfMul (a b : Byte) : Byte :=
  (List.range 8).foldr (fun i r => gfDouble r ^^^ (if b.getLsbD i then a else 0#8)) 0#8



/-- Inverse: the 254th power, a product of squares. -/
def gfInv (a : Byte) : Byte :=
  ((List.range 7).foldl (fun p _ => let q := gfMul p.1 p.1; (q, gfMul p.2 q)) (a, 1#8)).2

/-- The root α to a power. -/
def gfAlpha (n : Nat) : Byte := (List.range (n % 255)).foldl (fun r _ => gfDouble r) 1#8

/-- Value of a polynomial, lowest coefficient first. -/
def gfEval (c : List Byte) (x : Byte) : Byte := c.foldr (fun a r => gfMul r x ^^^ a) 0#8

/-- c(αⁱ) for i from `a` to `a + n - 1`. -/
def syndromes (c : List Byte) (a n : Nat) : List Byte := (List.range n).map fun i => gfEval c (gfAlpha (a + i))

/-- Product of a polynomial and (x + y). -/
def gfLinear (p : List Byte) (y : Byte) : List Byte := ((0#8 :: p).zip (p ++ [0#8])).map fun e => e.1 ^^^ gfMul e.2 y

/-- The values on the positions `ps` whose sums with the powers of α are `s`, one for each position: the value on a
position is the sum of `s` with the coefficients of the polynomial that is 1 there and 0 on the others. -/
def gfSolve (ps : List Nat) (s : List Byte) : List Byte :=
  ps.map fun p =>
    let others := (ps.filter (· ≠ p)).map gfAlpha
    let num := others.foldl gfLinear [1#8]
    let den := gfInv (gfEval num (gfAlpha p))
    gfMul den ((num.zip s).foldl (fun r e => r ^^^ gfMul e.1 e.2) 0#8)

/-- The sums that values on positions give for the powers from `a` on. -/
def gfSums (ps : List Nat) (e : List Byte) (a n : Nat) : List Byte :=
  (List.range n).map fun i => (ps.zip e).foldl (fun r x => r ^^^ gfMul x.2 (gfAlpha (x.1 * (a + i)))) 0#8

/-! ### Symbols (R264) -/

/-- The nibble of a lane group at a beat. Beat b carries bytes 4b to 4b + 3 of the burst, byte 4b + i on DQ8i to DQ8i+7
(PRESUMED, assumption 152). -/
def laneNibble (data : List Byte) (g beat : Nat) : Nat :=
  let b := (data.getD (4 * beat + g / 2) 0).toNat
  if g % 2 = 0 then b % 16 else b / 16

/-- Symbols 0 to 63: symbol 8g + k holds the bits of group g at beats 2k and 2k + 1. -/
def dataSymbols (data : List Byte) : List Byte :=
  (List.range 64).map fun j => BitVec.ofNat 8 (laneNibble data (j / 8) (2 * (j % 8)) + 16 * laneNibble data (j / 8) (2 * (j % 8) + 1))

/-- The bytes of a burst from its symbols. -/
def symbolData (sy : List Byte) : List Byte :=
  (List.range 64).map fun b =>
    let beat := b / 4
    let nib := fun g : Nat =>
      let x := (sy.getD (8 * g + beat / 2) 0).toNat
      if beat % 2 = 0 then x % 16 else x / 16
    BitVec.ofNat 8 (nib (2 * (b % 4)) + 16 * nib (2 * (b % 4) + 1))

/-- The fold address of a location: positions 80 to 84. -/
def foldBytes (l : DramLoc) : List Byte :=
  toLe 5 (l.ch % 8 + 8 * (l.sub % 2) + 16 * (l.rank % 2) + 32 * (l.group % 8) + 256 * (l.bank % 4) + 1024 * (l.row % 2 ^ 18)
    + 2 ^ 28 * (l.col % 128))

/-- The 80 symbols of a burst written at a location: the data, and the check symbols for which the whole is 0 at the
first 16 powers of α (R264). -/
def encodeBurst (l : DramLoc) (data : List Byte) : List Byte :=
  let d := dataSymbols (fit 64 data)
  d ++ gfSolve ((List.range 16).map (· + 64)) (syndromes (d ++ zeros 16 ++ foldBytes l) 0 16)

/-- What a read of a burst decodes to (R265); a correction gives the corrected symbols. -/
inductive Decoded where
  | clean
  | corrected (group : Nat) (symbols : List Byte)
  | misdirected
  | uncorrectable
  deriving DecidableEq, Repr

/-- The positions of a lane group. -/
def groupPositions (g : Nat) : List Nat := (List.range 8).map (· + 8 * g)

/-- Symbols with values taken from those of a group. -/
def lessGroup (sy : List Byte) (g : Nat) (e : List Byte) : List Byte :=
  sy.take (8 * g) ++ ((sy.drop (8 * g)).take 8).zipWith (· ^^^ ·) e ++ sy.drop (8 * g + 8)

/-- Decodes a read at the location addressed (R265). -/
def decodeBurst (l : DramLoc) (stored : List Byte) : Decoded :=
  let s := syndromes (stored ++ foldBytes l) 0 16
  if s.all (· = 0#8) then .clean
  else
    let found := (List.range 10).findSome? fun g =>
      let e := gfSolve (groupPositions g) (s.take 8)
      if gfSums (groupPositions g) e 8 8 = s.drop 8 then some (g, e) else none
    match found with
    | some (g, e) => .corrected g (lessGroup stored g e)
    | none =>
      let ps := (List.range 5).map (· + 80)
      let e := gfSolve ps (s.take 5)
      if gfSums ps e 5 11 = s.drop 5 then .misdirected else .uncorrectable

/-! ### The bursts that the devices hold -/

/-- Key of a burst: channel and burst number. -/
def burstKey (ch offset : Nat) : Nat := ch * 2 ^ 32 + offset / 64

/-- The symbols that a channel holds at an offset: as written, or the zeros of the fill with valid check (R253). -/
def burstAt (s : State) (ch offset : Nat) : List Byte :=
  (Tab.get? s.dram.bursts (burstKey ch offset)).getD (encodeBurst (burstLoc (dramOrg s) ch offset) (zeros 64))

/-- Stores symbols at an offset of a channel. -/
def putBurst (ch offset : Nat) (sy : List Byte) (s : State) : State :=
  { s with dram := { s.dram with bursts := Tab.set s.dram.bursts (burstKey ch offset) sy } }

/-- Errors arise in the stored symbols of a burst: values that change, by symbol. -/
def upset (ch offset : Nat) (flips : List (Nat × Byte)) (s : State) : State :=
  if flips.isEmpty then s
  else putBurst ch offset (flips.foldl (fun sy f => sy.modify f.1 (· ^^^ f.2)) (burstAt s ch offset)) s

/-! ### SRAM words (R267) -/

/-- The outcome of the syndrome of a word: the columns of its 39 stored bits and of its address bits are free values,
distinct and of odd weight in a device. -/
def sramOutcome (syndrome : BitVec 7) (addressBits : Nat) : BurstOutcome :=
  if syndrome = 0 then .clean
  else if (List.range 39).any fun i => decide (Config.sramColumn i = syndrome) then
    .corrected (((List.range 39).findIdx? fun i => decide (Config.sramColumn i = syndrome)).getD 0)
  else if (List.range (min 25 addressBits)).any fun i => decide (Config.sramColumn (39 + i) = syndrome) then .misdirected
  else .uncorrectable

end Sys2Proof.Machine
end

