-- ==== Sys2Proof/Machine/Issue.lean ====
section
/-! DEFINITION. How an Opxus instruction issues: the order of its checks (R310), retirement and the step budget
(R303), trap entry and what follows a trap (R312 to R315). -/

namespace Sys2Proof.Machine

/-- What the body of an instruction answers. -/
inductive Issued where
  /-- it retires; the next instruction follows -/
  | retire (s : State)
  /-- it retires; control goes to the address -/
  | jump (s : State) (target : Word)
  /-- it traps: cause, tval, code -/
  | trap (s : State) (cause : Nat) (tval : Word) (code : Nat)
  /-- the state is complete as it stands: the task has left the core or the handler -/
  | done (s : State)

/-! ### Retirement (R303) -/

/-- One instruction counts against the budget; at zero the exhaustion flag is set (R303). -/
def countStep (k : Task) : Task :=
  if k.fw then k else if k.steps = 0 then { k with exhausted := true } else { k with steps := k.steps - 1 }

/-- The instruction retires and `pc` is the next address; a handler's instructions are not counted (R303). -/
def retireAt (v : View) (pc : Word) (s : State) : State :=
  if v.core.trapped then setCore s v.c { coreOf s v.c with hpc := pc }
  else modTask v.t (fun k => countStep { k with pc := pc }) s

/-! ### Traps (R312, R313) -/

/-- The task's fetch continues at tbase with the trap registers set (R312, R314). -/
def enterTrap (v : View) (cause : Nat) (tval : Word) (code : Nat) (s : State) : State :=
  let u := coreOf s v.c
  setCore s v.c { u with
    trapped := true
    tpc := viewPc v &&& 0xFFFFFF#32
    tval := tval
    tcause := BitVec.ofNat 32 (flagBit u.fw 31 + code * 256 + cause)
    tstat := BitVec.ofNat 32 (flagBit u.fw 31 + u.slot % 65536)
    hpc := u.tbase &&& 0xFFFFC0#32
    hstack := []
    slot := 0xFFFF }

/-- The log 0xC4 entries of a program task that a trap ends: class 0x20, and for a translation fault a class 0x21 entry
that follows it, counted in TRANSFAULTS (R313, R464; DEDUCED, assumption 12). -/
def recordTrapEnd (v : View) (cause : Nat) (tval : Word) (s : State) : State :=
  let e : LogEntry := { level := 0, cls := 0x20, site := coreSite v.c, slice := v.task.slice, addr := tval.toNat,
                        aux0 := cause, aux1 := (viewPc v).toNat }
  let s := recordNote e 0 s
  if cause = 6 then
    modSlice v.task.slice (fun x => { x with transFaults := satAdd 32 x.transFaults 1 })
      (recordNote { e with cls := 0x21, aux0 := 0, aux1 := 0, related := s.faults.newest } 0 s)
  else s

/-- The services of R373. -/
def serviceDefined (code : Nat) : Bool := code = 1 || code = 2 || code = 3

/-- What follows a trap (R313). The trap registers are set first; then firmware's disposition is carried out: a defined
service stays in the handler, a fetch memory error restarts the task, a program task ends, and at firmware privilege the
cell is at fault. -/
def takeTrap (v : View) (cause : Nat) (tval : Word) (code : Nat) (s : State) : State :=
  if v.core.trapped then cellFault v.c s
  else
    let s := enterTrap v cause tval code s
    if cause = 0x0D && serviceDefined code then s
    else if cause = 0x08 then restartTask v.t s
    else if v.core.fw then cellFault v.c s
    else endTask v.t (if cause = 0x0E then 0x84 else 0x83) (recordTrapEnd v cause tval s)

/-! ### Issue (R310) -/

/-- Bytes of the image that the core fetches from; a firmware image may fill I-space (R280). -/
def imageBytes (s : State) (v : View) : Nat :=
  if v.core.trapped then 2 ^ 24
  else match Tab.get? s.progs v.core.slot with
    | some g => if v.core.slot = 0xFFFF then 2 ^ 24 else g.code.length
    | none => 2 ^ 24

/-- A control transfer may reach the address: a multiple of 4, below 2²⁴, within the image (R306). -/
def targetOk (s : State) (v : View) (x : Word) : Bool :=
  decide (x.toNat % 4 = 0 ∧ x.toNat < 2 ^ 24 ∧ x.toNat < imageBytes s v)

/-- Issues one instruction on a core: budget, fetch, encoding, guard and body, in the order of R310. -/
def issue (c : CoreId) (g : Guard) (word : Word) (legal : Bool) (body : View → State → Issued) (s : State) : State :=
  match running s c with
  | none => s
  | some v =>
    if !viewFw v && v.task.exhausted then takeTrap v 0x0E 0 0 s
    else if !decide ((viewPc v).toNat < imageBytes s v) then takeTrap v 0x09 (viewPc v) 0 s
    else if !legal then takeTrap v 0x01 word 0 s
    else if !guardTrue v g then retireAt v (viewPc v + 4) s
    else match body v s with
      | .retire s => retireAt v (viewPc v + 4) s
      | .jump s x => retireAt v x s
      | .trap s cause tval code => takeTrap v cause tval code s
      | .done s => s

/-- A body that writes one register. -/
def toReg (d : Reg) (f : View → Word) (v : View) (s : State) : Issued := .retire (putView (wr v d (f v)) s)

/-- A body that changes predicates only. -/
def toPreds (f : View → View) (v : View) (s : State) : Issued := .retire (putView (f v) s)

/-! ### Return stacks (R290, R291, R312) -/

/-- Depth of the return stack of the task on a core: on chip, and in its spill area (R290, R291). -/
def returnDepth (v : View) : Nat := v.core.rchip.length + v.task.rstack.length

/-- A call finds the on-chip part full: its oldest 32 entries move to the spill area (R291). -/
def spillReturns (v : View) : View :=
  if v.core.rchip.length < 64 then v
  else { v with core := { v.core with rchip := v.core.rchip.take 32 }
                task := { v.task with rstack := v.core.rchip.drop 32 ++ v.task.rstack } }

/-- A `ret` finds the on-chip part empty: up to 32 entries come back (R291). -/
def fillReturns (v : View) : View :=
  if v.core.rchip.isEmpty then
    { v with core := { v.core with rchip := v.task.rstack.take 32 }, task := { v.task with rstack := v.task.rstack.drop 32 } }
  else v

/-- Pushes a return address; none at the limit of 4,096, or 16 in a handler. -/
def pushReturn (v : View) (x : Word) : Option View :=
  if v.core.trapped then
    if 16 ≤ v.core.hstack.length then none else some { v with core := { v.core with hstack := x :: v.core.hstack } }
  else if 4096 ≤ returnDepth v then none
  else
    let v := spillReturns v
    some { v with core := { v.core with rchip := x :: v.core.rchip } }

/-- Pops a return address; none at depth 0. -/
def popReturn (v : View) : Option (Word × View) :=
  if v.core.trapped then
    match v.core.hstack with
    | [] => none
    | x :: r => some (x, { v with core := { v.core with hstack := r } })
  else
    let v := fillReturns v
    match v.core.rchip with
    | [] => none
    | x :: r => some (x, { v with core := { v.core with rchip := r } })

/-- Depth of the task's return stack (rsd). -/
def rsdOf (v : View) : Word := BitVec.ofNat 32 (returnDepth v)

/-! ### Data memory (R281, R302, R310) -/

/-- The trap that a pending memory error of a posted store raises (R311). -/
def storeErrorOf (s : State) (v : View) : Option Word := ((taskOf s v.t).map (·.storeError)).getD none

/-- Loads `n` bytes at `a`, or the trap: misaligned, not translated, memory error (R310, R311). -/
def load (v : View) (a : Word) (n : Nat) (s : State) : Except (Nat × Word) Nat :=
  if a.toNat % n ≠ 0 then .error (0x05, a)
  else match place s v.t v.task a.toNat with
    | none => .error (0x06, a)
    | some p =>
      match v.task.storeError with
      | some w => .error (0x07, w)
      | none =>
        if burstLost s p.1 p.2.1 then .error (0x07, a) else .ok (ofLe (loadBytes s v a.toNat n))

/-- The body of a load: D receives `f` of the bytes read (R302). -/
def loadBody (d a : Reg) (imm : BitVec 12) (n : Nat) (f : Nat → Word) (v : View) (s : State) : Issued :=
  match load v (addrOf v a imm) n s with
  | .error (cause, x) => .trap s cause x 0
  | .ok x => .retire (putView (wr v d (f x)) s)

/-- Posts a store of `bs` at `a`, or the trap: misaligned, not translated for writing (R283, R310). -/
def store (v : View) (a : Word) (bs : List Byte) (s : State) : Except (Nat × Word) State :=
  if a.toNat % bs.length ≠ 0 then .error (0x05, a)
  else match place s v.t v.task a.toNat with
    | none => .error (0x06, a)
    | some p => if p.2.2 then .ok (postStore v.c a bs s) else .error (0x06, a)

/-- The body of a store: the low `n` bytes of D go to memory (R302). -/
def storeBody (d a : Reg) (imm : BitVec 12) (n : Nat) (v : View) (s : State) : Issued :=
  match store v (addrOf v a imm) (toLe n (rd v d).toNat) s with
  | .error (cause, x) => .trap s cause x 0
  | .ok s => .retire s

/-- An instruction that waits for every earlier store (R284): it acts on the drained state, or traps with 0x07 when a
store met a memory error (R311). -/
def afterStores (v : View) (s : State) (act : View → State → Issued) : Issued :=
  let s := drainStores v.c s
  match taskOf s v.t with
  | none => .done s
  | some k =>
    match k.storeError with
    | some w => .trap s 0x07 w 0
    | none => act { v with task := k, core := coreOf s v.c } s

end Sys2Proof.Machine
end

