-- ==== Sys2Proof/Machine/Dram.lean ====
section
/-! DEFINITION. The DRAM controller (R245 to R276): activation counts and row disturbance, refresh and calibration, the
queues of the subchannels, the outcomes of bursts by what they hold and who reads them, traverse, and the loss of a channel.
A bank key is (rank × 2 + subchannel) × 32 + bank group × 4 + bank; a lane key is (rank × 2 + subchannel) × 16 + lane
group. -/

namespace Sys2Proof.Machine

/-- DRAM channel `ch`. -/
def dramOf (s : State) (ch : Nat) : DramChannel := Tab.getD s.dram.channels ch {}

/-- Changes a DRAM channel. -/
def modDram (ch : Nat) (f : DramChannel → DramChannel) (s : State) : State :=
  { s with dram := { s.dram with channels := Tab.set s.dram.channels ch (f (dramOf s ch)) } }

/-- The unit of a DRAM channel (R521). -/
def dramSite (ch : Nat) : Site := { kind := 9, index := ch }

/-- The pair of a channel is broken (R274). -/
def pairBroken (s : State) (ch : Nat) : Bool := s.dram.brokenPairs.contains (ch % 4)

/-! ### Row disturbance (R258, R259) -/

/-- The lowest count of a row table. -/
def lowestCount (t : List (Nat × Nat)) : Nat :=
  match t.map (·.2) with
  | [] => 0
  | c :: cs => cs.foldl min c

/-- Replaces the first entry that has count `c`. -/
def replaceCount (c : Nat) (x : Nat × Nat) : List (Nat × Nat) → List (Nat × Nat)
  | [] => []
  | e :: es => if e.2 = c then x :: es else e :: replaceCount c x es

/-- One ACT to a row (R258). -/
def actTable (t : List (Nat × Nat)) (row : Nat) : List (Nat × Nat) :=
  if t.any fun e => decide (e.1 = row) then t.map fun e => if e.1 = row then (e.1, e.2 + 1) else e
  else if t.length < 32 then t ++ [(row, 1)]
  else replaceCount (lowestCount t) (row, lowestCount t + 1) t

/-- The count of a row in a table. -/
def rowCount (t : List (Nat × Nat)) (row : Nat) : Nat := ((t.find? fun e => decide (e.1 = row)).map (·.2)).getD 0

/-- An ACT is counted; at DR_RHTH further ACTs to the row are held (R259). -/
def countAct (ch bank row : Nat) (s : State) : State :=
  let t := actTable (Tab.getD (dramOf s ch).tables bank []) row
  let hold := decide (s.dram.rhth ≤ rowCount t row)
  modDram ch (fun c => { c with
    tables := Tab.set c.tables bank t
    heldRows := if hold then c.heldRows ++ [(bank, row)] else c.heldRows }) s

/-- DRFM or RFM has been issued: the count falls to the lowest of the table and the held ACTs go on (R259). -/
def execRowDisturbThreshold (ch : Fin 8) (bankKey row : Nat) (_drfm : Bool) (s : State) : Out :=
  .next (
    if (dramOf s ch.val).heldRows.contains (bankKey, row) then
      let t := Tab.getD (dramOf s ch.val).tables bankKey []
      let low := lowestCount t
      modDram ch.val (fun c => { c with
        tables := Tab.set c.tables bankKey (t.map fun e => if e.1 = row then (e.1, low) else e)
        heldRows := c.heldRows.filter (· ≠ (bankKey, row)) }) s
    else s)

/-- Ticks of a period that halves while refresh runs at twice its normal rate. -/
def atRate (c : DramChannel) (n : Nat) : Nat := if c.twice then n / 2 else n

/-- A refresh window has passed, 32 ms or 16 ms at twice the rate: every row table of the channel is cleared (R258). -/
def execRefreshWindowStart (ch : Fin 8) (s : State) : Out :=
  .next (
    let c := dramOf s ch.val
    if c.windowAt + atRate c 3200000 ≤ s.datum then modDram ch.val (fun c => { c with tables := [], windowAt := s.datum }) s else s)

/-! ### Refresh and calibration (R260, R262) -/

/-- Ticks between refreshes of a DRAM channel: 3.9 µs, JESD79-5's tREFI (PRESUMED, assumption 139). -/
def refreshInterval : Nat := 390

/-- A refresh has fallen due (R260). -/
def refreshDue (s : State) (c : DramChannel) : Bool :=
  !s.dram.selfRefresh && decide (c.refreshAt + atRate c refreshInterval ≤ s.datum)

/-- A same-bank refresh that has fallen due is issued (R260). -/
def execDramRefresh (ch : Fin 8) (_bankKey : Nat) (s : State) : Out :=
  .next (
    let c := dramOf s ch.val
    if refreshDue s c then
      modDram ch.val (fun c => { c with refreshes := c.refreshes + 1, refreshAt := c.refreshAt + atRate c refreshInterval }) s
    else s)

/-- Mode register 4 is read every 16 ms: it may ask for refresh at twice the rate (R260). -/
def execMr4Poll (ch : Fin 8) (twice : Bool) (s : State) : Out :=
  .next (if (dramOf s ch.val).mr4At + 1600000 ≤ s.datum then modDram ch.val (fun c => { c with twice := twice, mr4At := s.datum }) s
    else s)

/-- ZQ calibration of a rank is due: every 128 ms, and after self-refresh (R262, R263). -/
def zqDue (s : State) (c : DramChannel) (rank : Nat) : Bool :=
  c.zqDue || decide (Tab.getD c.zqAt rank 0 + 12800000 ≤ s.datum)

/-- ZQ calibration of a rank (R262). -/
def execZqCalibration (ch : Fin 8) (rank : Nat) (s : State) : Out :=
  .next (if zqDue s (dramOf s ch.val) rank then
      modDram ch.val (fun c => { c with zqAt := Tab.set c.zqAt rank s.datum, zqDue := c.zqDue && s.dram.selfRefresh }) s
    else s)

/-- Sensor of a channel's DRAM PHY (R469). -/
def dramSensor (ch : Nat) : Nat := 40 + ch

/-- The DQS oscillator is to be read: every 32 ms, when the PHY's sensor has moved 5 °C, and after self-refresh (R262,
R263). -/
def oscDue (s : State) (ch : Nat) : Bool :=
  let c := dramOf s ch
  c.oscDue || decide (c.oscAt + 3200000 ≤ s.datum)
    || (validReading s (dramSensor ch)).any fun t => decide (20 ≤ (t - c.oscTemp).natAbs)

/-- The DQS oscillator is read; drift beyond 1/16 UI asks for retraining (R262). -/
def execDqsOscillatorRead (ch : Fin 8) (drift : Bool) (s : State) : Out :=
  .next (if oscDue s ch.val then modDram ch.val (fun c => { c with
      oscAt := s.datum
      oscDue := c.oscDue && s.dram.selfRefresh
      oscTemp := (validReading s (dramSensor ch.val)).getD c.oscTemp
      retrainDue := c.retrainDue || drift }) s
    else s)

/-- Maintenance of a channel has fallen due, so that its subchannels issue it first (R256). -/
def maintenanceDue (s : State) (ch : Nat) : Bool :=
  let c := dramOf s ch
  refreshDue s c || c.retrainDue || oscDue s ch || (List.range (dramOrg s).ranks).any (zqDue s c)

/-! ### Errors by what a burst holds (R268 to R270, R275) -/

/-- Content set of AUX0: 0 W, 1 S, 2 U (R522). -/
def contentSet (x : BurstContent) : Nat :=
  match x with
  | .setW _ => 0
  | .setS => 1
  | .instr _ _ => 2
  | .mapPage _ _ => 2
  | .compute _ _ _ => 2

/-- The only copy of a line of set W is lost: the unit whose data it held is marked 0b11 (R275). -/
def loseLine (slot : Nat) (s : State) : State :=
  match s.lines.find? fun l => decide (l.slot = slot) with
  | none => s
  | some l =>
    let u := l.quarter / 4
    let rest := s.lines.erase l
    let last := !(rest.any fun x => decide (x.nsid = l.nsid ∧ x.quarter / 4 = u))
    let s := { s with lines := rest }
    let s := if last then modNs l.nsid (fun n =>
        { n with map := Tab.modify n.map u fun e => { e with kind := MapKind.deallocated } }) s else s
    markUnreadable l.nsid u s

/-- A record in set S is lost with its last copy: a task, which the spec leaves open, ends with a fault (R275; free value,
assumption 19). -/
def loseRecord (s : State) : State :=
  match s.tasks[freeNat s % max 1 s.tasks.length]? with
  | some t => endTask t.1 0x83 (drew 1 s)
  | none => s

/-- What the reader of a lost burst of compute memory meets (R269). -/
def readerFails (r : BurstReader) (s : State) : State :=
  match r with
  | .load t => endTask t 0x83 s
  | .engine t => endTask t 0x83 s
  | .host h => if s.held.any fun c => decide (c.h = h) then refuse h sInternal s else s
  | .fetch _ => s
  | .none => s

/-- The bursts of compute memory lost in a channel that the table of the channel holds; traverse enters at most 256
(R271). -/
def lostRoom (s : State) (ch : Nat) (r : BurstReader) : Bool :=
  decide (r ≠ .none) || decide ((s.dram.badCompute.filter fun e => decide (e.1 = ch)).length < 256)

/-- A burst of compute memory is lost until it is filled or written whole (R271). -/
def loseCompute (ch sl : Nat) (sp : Space) (addr : Nat) (r : BurstReader) (s : State) : State :=
  if burstLost s sp addr || !lostRoom s ch r then s
  else
    modSlice sl (fun x => { x with lostMem := x.lostMem + 64 })
      { s with dram := { s.dram with badCompute := s.dram.badCompute ++ [(ch, sp, addr / 64)] } }

/-- A bad copy of sets W and S is rewritten from the other channel of its pair (R269). -/
def rewriteCopy (ch offset : Nat) (s : State) : State :=
  let o := dramOrg s
  let other := (ch + 4) % 8
  let sy := burstAt s other offset
  let sy := match decodeBurst (burstLoc o other offset) sy with
    | .corrected _ fixed => fixed
    | _ => sy
  putBurst ch offset (encodeBurst (burstLoc o ch offset) (symbolData sy)) s

/-- A burst is rewritten with the 64 bytes of its image in flash, or, of a map page, when the page has been loaded again:
its check is valid (R188, R269). -/
def rewriteBurst (ch offset : Nat) (s : State) : State :=
  { s with dram := { s.dram with bursts := Tab.erase s.dram.bursts (burstKey ch offset) } }

/-- An uncorrectable or misdirected burst by its content and its reader (R269, R275). -/
def badBurst (ch offset : Nat) (e : LogEntry) (content : BurstContent) (reader : BurstReader) (s : State) : State :=
  match content with
  | .instr _ a =>
    let s := rewriteBurst ch offset (recordMasked e s)
    match reader with
    | .fetch c => (match running s c with
      | some v => takeTrap v 0x08 (BitVec.ofNat 32 a) 0 s
      | none => s)
    | _ => s
  | .setW line => if pairBroken s ch then loseLine line (recordDetected e s) else rewriteCopy ch offset (recordMasked e s)
  | .setS => if pairBroken s ch then loseRecord (recordDetected e s) else rewriteCopy ch offset (recordMasked e s)
  | .mapPage n p => reloadPage n p (rewriteBurst ch offset (recordMasked e s))
  | .compute sl sp a => readerFails reader (loseCompute ch sl sp a reader (recordDetected { e with slice := sl } s))

/-- The entry of a bad burst (R522). -/
def burstEntry (ch offset : Nat) (content : BurstContent) : LogEntry :=
  { level := 3, cls := 0x05, site := dramSite ch, addr := offset, aux0 := contentSet content }

/-! ### Losing a channel (R273 to R276) -/

/-- The spaces of compute memory in use, in set U (R249, R371). -/
def spacesInUse (s : State) : List Space :=
  (s.tasks.map fun t => .priv t.1) ++ s.invs.flatMap (fun v => [.invArea v.1, .input v.1])
    ++ s.slices.flatMap (fun x => [.common x.1, .pool x.1])

/-- Compute memory in use is reported lost against its slices, in bytes: every allocation of whole MiB has lines in each
member channel (R274, R250). The lines of the lost channel fault on access; which member of an allocation's extents it is
the spec leaves open (free values, assumption 150). -/
def loseMemory (s : State) : State :=
  let s := (s.slices.map (·.1)).foldl (fun s n =>
    modSlice n (fun x => { x with lostMem := x.lostMem + 1048576 * dramInUse s n }) s) s
  let n := ((s.dram.channels.filter fun c => c.2.inService).length) + 1
  let lost := (indexed (spacesInUse s)).map fun e => (e.2, n, grainBytes s, freeNat (drew e.1 s) % n)
  drew lost.length { s with dram := { s.dram with lostMembers := s.dram.lostMembers ++ lost } }

/-- Map cache pages with lines in the lost channel are discarded, and loaded again on demand (R274). Which ones have such
lines the spec leaves open (free values, assumption 150). -/
def dropPages (s : State) : State :=
  let cached := (s.media.pages.filter fun p => p.2.cached).map (·.1)
  let gone := (indexed cached).filter fun e => decide (freeNat (drew e.1 s) % 2 = 1)
  drew cached.length (gone.foldl (fun s e =>
    let nsid := e.2 / 2 ^ 32
    let page := e.2 % 2 ^ 32
    modPage nsid page (fun p => { p with cached := false, dirty := false, pending := deltasAfter s nsid page p.mediaSeq }) s) s)

/-- The queued reads of a channel that fails come back as uncorrectable; its queued writes are discarded (R274). -/
def returnReads (ch : Nat) (s : State) : State :=
  let reads := ((dramOf s ch).queues.flatMap (·.2)).filter fun r => !r.2.write
  reads.foldl (fun s r => badBurst ch r.1 (burstEntry ch r.1 r.2.content) r.2.content r.2.reader s)
    (modDram ch (fun c => { c with queues := [], draining := [] }) s)

/-- Both channels of a pair are lost: every line of set W in the pair is, and a record of set S that was still in it
(R275). -/
def losePair (ch : Nat) (s : State) : State :=
  let slots := (s.lines.filter fun l => decide (l.slot % 4 = ch % 4)).map (·.slot)
  let e := burstEntry ch 0 (.setW 0)
  let s := slots.foldl (fun s i => loseLine i (recordDetected e s)) s
  if s.dram.setSReforming then loseRecord (recordDetected { e with aux0 := 1 } s) else s

/-- MiB of set U on a channel (R248). -/
def setUMib (s : State) : Nat := (dramChannelBytes s - 0x30000000) / 1048576

/-- Fails a DRAM channel (R273, R274): fenced, its pair broken, set S re-formed over the pairs that remain, B and the
baseline computed again, its part of set U lost, also to new allocations. `cause` as in class 0x13. -/
def failDram (ch cause : Nat) (s : State) : State :=
  if !(dramOf s ch).inService then s
  else
    let s := bookCount 22 (recordMasked { level := 3, cls := 0x13, site := dramSite ch, aux0 := cause } s)
    let s := returnReads ch (modDram ch (fun c => { c with inService := false, heldRows := [], revisit := [], tables := [] }) s)
    let s := if pairBroken s ch then losePair ch s else s
    let d := s.dram
    let total := d.totalMib - setUMib s
    let s := { s with dram := { d with
      brokenPairs := if d.brokenPairs.contains (ch % 4) then d.brokenPairs else d.brokenPairs ++ [ch % 4]
      setSReforming := true
      totalMib := total
      filledMib := min d.filledMib total } }
    baselineTrigger 1 (refreshB (dropPages (loseMemory s)))

/-- A channel fails (R273). -/
def execDramChannelFail (ch : Fin 8) (cause : Nat) (s : State) : Out := .next (failDram ch.val cause s)

/-- Write DQS retraining; a failure fails the channel (R262, R273). -/
def execDqsRetrain (ch : Fin 8) (ok : Bool) (s : State) : Out :=
  .next (
    if !(dramOf s ch.val).retrainDue then s
    else if ok then modDram ch.val (fun c => { c with retrainDue := false }) s
    else failDram ch.val 2 (modDram ch.val (fun c => { c with retrainDue := false }) s))

/-- Set S has been re-formed over the remaining pairs (R274). -/
def execSetSReformComplete (s : State) : Out := .next { s with dram := { s.dram with setSReforming := false } }

/-! ### Decoded bursts (R265, R268 to R270) -/

/-- Counts a misdirected or uncorrectable burst; two misdirected, or sixteen uncorrectable, within 1 s fail the channel
(R269, R273). -/
def countBad (ch : Nat) (misdirected : Bool) (s : State) : State :=
  let recent := fun l : List Nat => l.filter fun t => decide (s.datum < t + 100000000)
  let s := modDram ch (fun c =>
    if misdirected then { c with misdirected := satAdd 32 c.misdirected 1, misdirectedAt := s.datum :: recent c.misdirectedAt }
    else { c with uncorrectable := satAdd 32 c.uncorrectable 1, uncorrectableAt := s.datum :: recent c.uncorrectableAt }) s
  let c := dramOf s ch
  if 2 ≤ c.misdirectedAt.length then failDram ch 3 s
  else if 16 ≤ c.uncorrectableAt.length then failDram ch 4 s
  else s

/-- Counts a corrected burst, and the bursts of its lane group in this pass (R268, R270). -/
def countCorrected (ch addr laneKey : Nat) (s : State) : State :=
  let c := dramOf s ch
  let hits := Tab.getD c.laneHits laneKey []
  let hits := if hits.contains addr then hits else addr :: hits
  let report := decide (1024 < hits.length) && !c.laneReported.contains laneKey
  let s := modDram ch (fun c => { c with
    corrected := satAdd 64 c.corrected 1
    laneHits := Tab.set c.laneHits laneKey hits
    laneReported := if report then laneKey :: c.laneReported else c.laneReported }) s
  if report then
    recordMasked { level := 3, cls := 0x04, site := dramSite ch, aux0 := Config.lanePack (laneKey / 16) (laneKey % 16),
                   aux1 := hits.length } s
  else s

/-- A burst enters the revisit list of its channel, while that has room (R268, R272). -/
def enterRevisit (ch addr : Nat) (s : State) : State :=
  modDram ch (fun c => { c with
    revisit := if 256 ≤ c.revisit.length ∨ c.revisit.contains addr = true then c.revisit else c.revisit ++ [addr] }) s

/-- What follows from the decoding of a burst read at a location (R265, R268 to R270). -/
def decodedOutcome (l : DramLoc) (addr : Nat) (d : Decoded) (content : BurstContent) (reader : BurstReader) (revisit : Bool)
    (s : State) : State :=
  let e := burstEntry l.ch addr content
  match d with
  | .clean => s
  | .corrected g _ =>
    let s := countCorrected l.ch addr ((l.rank * 2 + l.sub) * 16 + g) s
    if revisit then enterRevisit l.ch addr s else s
  | .misdirected => countBad l.ch true (badBurst l.ch addr { e with cls := 0x06 } content reader s)
  | .uncorrectable => countBad l.ch false (badBurst l.ch addr e content reader s)

/-! ### The queue of a subchannel (R255 to R257) -/

/-- Requests queued at a subchannel. -/
def queueOf (s : State) (ch sub : Nat) : List (Nat × DramRequest) := Tab.getD (dramOf s ch).queues sub []

/-- The place that a request accesses: a read of sets W and S goes to the copy in DCH0 to DCH3 while that channel is in
service (R249). -/
def requestPlace (s : State) (r : DramRequest) : Option (Nat × Nat) :=
  if r.write then placeAt s r.second r.place
  else (placeAt s false r.place).bind fun p => if (dramOf s p.1).inService then some p else placeAt s true r.place

/-- A request reaches the subchannel that its place lies in (R251, R255): the queue holds 64. -/
def enqueue (ch sub : Nat) (s : State) (r : DramRequest) : State :=
  match requestPlace s r with
  | none => s
  | some p =>
    if p.1 = ch ∧ subOf p.2 = sub ∧ (queueOf s ch sub).length < 64 then
      modDram ch (fun c => { c with queues := Tab.set c.queues sub (queueOf s ch sub ++ [(p.2 / 64 * 64, r)]) }) s
    else s

/-- The bank and row that a queued request activates. -/
def bankRow (s : State) (ch : Nat) (r : Nat × DramRequest) : Nat × Nat :=
  let l := burstLoc (dramOrg s) ch r.1
  (bankKeyOf l, l.row)

/-- A bank's queue is in in-order mode: a read and a write of it have the same row (R257). -/
def inOrderMode (s : State) (ch : Nat) (q : List (Nat × DramRequest)) (bank : Nat) : Bool :=
  q.any fun a => q.any fun b =>
    a.2.write && !b.2.write && decide (bankRow s ch a = bankRow s ch b ∧ (bankRow s ch a).1 = bank)

/-- The requests that may issue, oldest first: their bank can accept an ACT, their row is not held (R259), and in
in-order mode only the oldest of the bank (R257). -/
def mayIssue (s : State) (ch : Nat) (busy : List Nat) (q : List (Nat × DramRequest)) : List (Nat × DramRequest) :=
  q.filter fun r =>
    let b := bankRow s ch r
    !busy.contains b.1 && !(dramOf s ch).heldRows.contains b
      && (!inOrderMode s ch q b.1 || decide ((q.find? fun x => decide ((bankRow s ch x).1 = b.1)) = some r))

/-- Writes take precedence over reads from 48 queued until 16 remain (R256). -/
def drains (was : Bool) (q : List (Nat × DramRequest)) : Bool :=
  let n := (q.filter fun r => r.2.write).length
  decide (48 ≤ n) || (was && decide (16 < n))

/-- The request that a subchannel issues next (R256): the earliest deadline, then reads and then writes, oldest first,
or writes first while they drain. -/
def nextRequest (draining : Bool) (l : List (Nat × DramRequest)) : Option (Nat × DramRequest) :=
  let dated := l.filterMap fun r => r.2.deadline.map fun d => (d, r)
  match dated with
  | x :: xs => some (xs.foldl (fun b r => if r.1 < b.1 then r else b) x).2
  | [] =>
    let reads := l.find? fun r => !r.2.write
    let writes := l.find? fun r => r.2.write
    if draining then writes.or reads else reads.or writes

/-- The bytes of a burst after a write with byte enables. -/
def mergeBytes (old new : List Byte) (enables : BitVec 64) : List Byte :=
  (List.range 64).map fun i => if enables.getLsbD i then new.getD i 0 else old.getD i 0

/-- A burst of compute memory that is written whole is no longer lost (R271). -/
def clearLost (content : BurstContent) (s : State) : State :=
  match content with
  | .compute _ sp a => { s with dram := { s.dram with badCompute := s.dram.badCompute.filter fun e => decide (e.2 ≠ (sp, a / 64)) } }
  | _ => s

/-- The access of a request at a location (R254, R255, R264, R265): `at'` is where it lands in the devices. A write
stores the encoded burst; a partial one is a read, a merge and a write, which is not made when the read is bad. -/
def accessBurst (l : DramLoc) (r : Nat × DramRequest) (at' : Nat × Nat) (s : State) : State :=
  let q := r.2
  if q.write && decide (q.enables = BitVec.allOnes 64) then
    clearLost q.content (putBurst at'.1 at'.2 (encodeBurst l q.data) s)
  else
    let stored := burstAt s at'.1 at'.2
    let d := decodeBurst l stored
    let s := decodedOutcome l r.1 d q.content q.reader true s
    if !q.write then s
    else match d with
      | .clean => putBurst at'.1 at'.2 (encodeBurst l (mergeBytes (symbolData stored) q.data q.enables)) s
      | .corrected _ sy => putBurst at'.1 at'.2 (encodeBurst l (mergeBytes (symbolData sy) q.data q.enables)) s
      | _ => s

/-- A channel that has left self-refresh is not yet ready for its first access (R263). -/
def stillWaking (c : DramChannel) : Bool := c.zqDue || c.oscDue || (c.waking && c.retrainDue)

/-- A subchannel takes the requests that have arrived and issues the one that R256 selects, as an ACT with its read or
write (R254 to R257); `busy` are the banks that cannot accept an ACT, `flips` the errors that have arisen in the burst,
`landed` the place that the access reaches when it is not the one addressed (R266). -/
def execDramAccessIssue (ch : Fin 8) (sub : Fin 2) (arrivals : List DramRequest) (busy : List Nat) (flips : List (Nat × Byte))
    (landed : Option (Nat × Nat)) (s : State) : Out :=
  .next (
    let c := dramOf s ch.val
    if !c.inService || s.dram.selfRefresh then s
    else
      let s := arrivals.foldl (enqueue ch.val sub.val) s
      let q := queueOf s ch.val sub.val
      let dr := drains ((dramOf s ch.val).draining.contains sub.val) q
      let s := modDram ch.val (fun c => { c with
        draining := if dr then sub.val :: c.draining.erase sub.val else c.draining.erase sub.val }) s
      if stillWaking c || maintenanceDue s ch.val then s
      else match nextRequest dr (mayIssue s ch.val busy q) with
        | none => s
        | some r =>
          let l := burstLoc (dramOrg s) ch.val r.1
          let s := modDram ch.val (fun c => { c with waking := false, queues := Tab.set c.queues sub.val (q.erase r) }) s
          accessBurst l r (landed.getD (ch.val, r.1)) (upset ch.val r.1 flips (countAct ch.val (bankKeyOf l) l.row s)))

/-! ### Fill and traverse (R253, R271, R272) -/

/-- MiB of the extents formed. -/
def extentsMib (s : State) : Nat := 64 * (s.dram.extents.map (·.length)).sum

/-- The background fill forms extents over the channels in service and fills them, up to `mib` of set U (R250, R253). -/
def fillTo (mib : Nat) : Nat → State → State
  | 0, s => s
  | fuel + 1, s =>
    let e := newExtent s
    if mib ≤ extentsMib s || e.isEmpty then s
    else fillTo mib fuel { s with dram := { s.dram with extents := s.dram.extents ++ [e] } }

/-- Set U has been filled up to `mib`, from where allocations are served (R250, R253). -/
def execSetUFill (mib : Nat) (s : State) : Out :=
  .next (
    let s := fillTo (min mib s.dram.totalMib) (ceilDiv (min mib s.dram.totalMib) 64) s
    { s with dram := { s.dram with filledMib := max s.dram.filledMib (min mib s.dram.totalMib) } })

/-- Bursts of one channel. -/
def channelBursts (s : State) : Nat := dramChannelBytes s / 64

/-- Every channel in service has been visited in this pass of traverse. -/
def passDone (s : State) : Bool := s.dram.channels.all fun c => !c.2.inService || decide (channelBursts s ≤ c.2.traversed)

/-- A pass of traverse begins once the last is complete and its period has passed; the counts of R270 start again
(R271). -/
def beginPass (s : State) : State :=
  if passDone s && decide (s.features.scrub * 3600 ≤ s.dram.passSecs) then
    { s with dram := { s.dram with
      passSecs := 0
      channels := s.dram.channels.map fun c => (c.1, { c.2 with traversed := 0, laneHits := [], laneReported := [] }) } }
  else s

/-- Reads a burst for traverse and rewrites it when it is corrected, as one queue entry (R255, R271). -/
def scrubBurst (ch offset : Nat) (content : BurstContent) (s : State) : State :=
  let l := burstLoc (dramOrg s) ch offset
  let d := decodeBurst l (burstAt s ch offset)
  let s := decodedOutcome l offset d content .none false s
  match d with
  | .corrected _ sy => putBurst ch offset sy s
  | _ => s

/-- Traverse visits the next burst of a channel: it rewrites a corrected one, and acts on a bad one without waiting for a
reader (R271). The revisit list goes ahead of its sweep (R272). -/
def execTraverseVisit (ch : Fin 8) (flips : List (Nat × Byte)) (content : BurstContent) (s : State) : Out :=
  .next (
    let s := beginPass s
    let c := dramOf s ch.val
    if !c.inService || s.dram.selfRefresh || !c.revisit.isEmpty || decide (channelBursts s ≤ c.traversed) then s
    else
      let a := c.traversed * 64
      scrubBurst ch.val a content (upset ch.val a flips (modDram ch.val (fun c => { c with traversed := c.traversed + 1 }) s)))

/-- Traverse rewrites a burst of the revisit list (R272); what it holds matters only when it has gone bad since. -/
def execRevisitRewrite (ch : Fin 8) (addr : Nat) (content : BurstContent) (s : State) : Out :=
  .next (
    let c := dramOf s ch.val
    if !c.inService || s.dram.selfRefresh || !c.revisit.contains addr then s
    else scrubBurst ch.val addr content (modDram ch.val (fun c => { c with revisit := c.revisit.filter (· ≠ addr) }) s))

end Sys2Proof.Machine
end

