-- ==== Sys2Proof/Machine/KeyArrays.lean ====
section
/-! DEFINITION. Key arrays (R388 to R413): tables and their segments, insertion with holes and the block mover,
deletion, lookup, the host commands and the program ports. -/

namespace Sys2Proof.Machine

/-! ### Presence of segments (R389, R411) -/

/-- A bank is searched while its region is lit or in penumbra, its domain is on, it is not retired, and its rows have been
loaded from the image and verified (R411, R412). -/
def bankPresent (s : State) (k : Nat) : Bool :=
  decide ((region s (k / 4)).state = .lit ∨ (region s (k / 4)).state = .penumbra)
    && domainOn s (k / 4) (40 + k % 4) && !unitRetired s (bankSite k) && decide (Tab.getD s.bankReady k 0 ≤ s.datum)

/-- A width group from bank `b` on is present. -/
def groupPresent (s : State) (width b : Nat) : Bool := (List.range width).all fun i => bankPresent s (b + i)

/-- A segment is searched in its own place or in its copy (R411). -/
def segPresent (s : State) (t : KeyTable) (g : Segment) : Bool :=
  groupPresent s t.width g.bank || (match g.mirror with
    | some (b, _) => groupPresent s t.width b
    | none => false)

/-- Segment order of a chain position (R390). -/
def segOf (p : Nat) : Nat := p / 1024

/-- The entry's segment is searched. -/
def posPresent (s : State) (t : KeyTable) (p : Nat) : Bool :=
  match t.segs[segOf p]? with
  | some g => segPresent s t g
  | none => false

/-- Some segment of the table is not searched: MISSING (R411). -/
def tableMissing (s : State) (t : KeyTable) : Bool := t.segs.any fun g => !segPresent s t g

/-- Entries that the table can hold (R390). -/
def tableCap (t : KeyTable) : Nat := t.segs.length * 1024

/-! ### Insertion and deletion (R396 to R399) -/

/-- Same VALUE, MASK and PRIORITY (R396, R407). -/
def sameKey (a b : KeyEntry) : Bool := decide (a.value = b.value ∧ a.mask = b.mask ∧ a.prio = b.prio)

/-- The chain position directly after every entry of lower or equal PRIORITY (R396). -/
def insertPlace (t : KeyTable) (prio : Nat) : Nat :=
  (t.entries.filter fun e => decide (e.2.prio ≤ prio)).foldl (fun b e => max b (e.1 + 1)) 0

/-- The nearest hole at or above `p`. -/
def holeAbove (t : KeyTable) (p : Nat) : Option Nat := Tab.lowestFree t.entries p (tableCap t - p)

/-- The nearest hole below `p`. -/
def holeBelow (t : KeyTable) (p : Nat) : Option Nat :=
  ((List.range p).reverse).find? fun i => !Tab.has t.entries i

/-- The hole toward which entries shift for an insertion at `p`: one in the run of 16 when there is one, else the
nearest in either direction (R397). -/
def chooseHole (t : KeyTable) (p : Nat) : Option Nat :=
  let up := holeAbove t p
  let down := holeBelow t p
  let run := p / 16
  match up, down with
  | none, none => none
  | some u, none => some u
  | none, some d => some d
  | some u, some d =>
    if u / 16 = run then some u
    else if d / 16 = run then some d
    else if u - p ≤ p - d then some u else some d

/-- Rows from `lo` to `hi` are written: their banks and shadows hold what the image holds (R398, R410). -/
def written (lo hi : Nat) (t : KeyTable) : KeyTable :=
  { t with upset := t.upset.filter fun e => !decide (lo ≤ e.1 ∧ e.1 ≤ hi)
           shadowBad := t.shadowBad.filter fun p => !decide (lo ≤ p ∧ p ≤ hi) }

/-- The position of the entry that the mover copies first: the one next to the hole. -/
def BlockMove.next (m : BlockMove) : Nat := if m.place ≤ m.hole then m.hole - 1 else m.hole + 1

/-- The block mover starts at the end next to the hole: the entry there is copied into the hole and its old position is
the duplicate, marked moving, until the mover has finished (R398). -/
def startMove (t : KeyTable) (m : BlockMove) : KeyTable :=
  let es := match Tab.get? t.entries m.next with
    | some e => Tab.set (Tab.set t.entries m.hole e) m.next { e with moving := true }
    | none => t.entries
  written (min m.next m.hole) (max m.next m.hole) { t with entries := es, move := some m }

/-- Shifts the entries between the place and the hole by one, and puts the new entry in the gap (R397, R398). -/
def shiftIn (t : KeyTable) (m : BlockMove) : KeyTable :=
  let own := t.entries.filter fun e => decide (e.1 ≠ m.hole)
  let own := own.map fun e => (e.1, { e.2 with moving := false })
  let es := if m.place ≤ m.hole then
      Tab.set (own.map fun e => if m.place ≤ e.1 ∧ e.1 < m.hole then (e.1 + 1, e.2) else e) m.place m.entry
    else
      Tab.set (own.map fun e => if m.hole < e.1 ∧ e.1 < m.place then (e.1 - 1, e.2) else e) (m.place - 1) m.entry
  written (min m.place m.hole) (max m.place m.hole) { t with entries := es, move := none }

/-- The outcome of one insertion. -/
inductive Inserted where
  | placed (t : KeyTable)
  | moving (t : KeyTable)
  | blocked
  | full

/-- Applies an insert: it replaces DATA in place; or shifts within its run; or starts the block mover; or waits when
the entries would pass an absent segment (R396, R397, R411). -/
def insertEntry (s : State) (t : KeyTable) (e : KeyEntry) : Inserted :=
  match t.entries.find? fun x => sameKey x.2 e with
  | some x => .placed (written x.1 x.1 { t with entries := Tab.set t.entries x.1 { x.2 with dat := e.dat } })
  | none =>
    if tableCap t ≤ t.entries.length then .full
    else
      let p := insertPlace t e.prio
      match chooseHole t p with
      | none => .full
      | some h =>
        let m : BlockMove := { entry := e, place := p, hole := h }
        let lo := min p h
        let hi := max p h
        let crosses := (List.range (segOf hi + 1)).any fun g =>
          decide (segOf lo ≤ g) && !posPresent s t (1024 * g) && decide (lo < hi)
        if crosses then .blocked
        else if h / 16 = p / 16 then .placed (shiftIn t m)
        else .moving (startMove t m)

/-- Deletes the entry of the same content; answers whether it was there (R397, R407). -/
def deleteEntry (t : KeyTable) (e : KeyEntry) : Bool × KeyTable :=
  match t.entries.find? fun x => sameKey x.2 e with
  | some x => (true, written x.1 x.1 { t with entries := Tab.erase t.entries x.1 })
  | none => (false, t)

/-- Completes a job's host command, when it has one: an insert that found the table full ends with 0x8B (R407). -/
def finishJob (j : KeyJob) (wasFull : Bool) (s : State) : State :=
  match j.h with
  | none => s
  | some h =>
    if j.insert then complete h (if wasFull then sVendor 0x8B else sOk) j.applied 0 [] s
    else complete h sOk j.applied j.missed [] s

/-- What running one job answers: the table, the job's rest (none when it is done), and whether it found the table full.
-/
def runJob (s : State) : Nat → KeyTable → KeyJob → KeyTable × Option KeyJob × KeyJob × Bool
  | 0, t, j => (t, some j, j, false)
  | n + 1, t, j =>
    if t.move.isSome then (t, some j, j, false)
    else match j.items with
      | [] => (t, none, j, false)
      | e :: rest =>
        if j.insert then
          match insertEntry s t e with
          | .placed t => runJob s n t { j with items := rest, applied := j.applied + 1 }
          | .moving t => (t, some { j with items := rest, applied := j.applied + 1 }, j, false)
          | .blocked => (t, some j, j, false)
          | .full => (t, none, j, true)
        else
          let r := deleteEntry t e
          runJob s n r.2 (if r.1 then { j with items := rest, applied := j.applied + 1 }
                          else { j with items := rest, missed := j.missed + 1 })

/-- Runs the jobs of a table in order; one that waits for a segment lets later ones pass (R404, R411). -/
def runJobs (n : Nat) : List KeyJob → State → State
  | [], s => s
  | j :: js, s =>
    match Tab.get? s.tables n with
    | none => s
    | some t =>
      let r := runJob s (j.items.length + 1) t j
      let t := r.1
      match r.2.1 with
      | some j' => runJobs n js { s with tables := Tab.set s.tables n { t with jobs := t.jobs ++ [j'] } }
      | none => runJobs n js (finishJob r.2.2.1 r.2.2.2 { s with tables := Tab.set s.tables n t })

/-- Runs whatever waits on a table. -/
def pumpTable (n : Nat) (s : State) : State :=
  match Tab.get? s.tables n with
  | none => s
  | some t => runJobs n t.jobs { s with tables := Tab.set s.tables n { t with jobs := [] } }

/-- Enters a job and runs the table. -/
def enterJob (n : Nat) (j : KeyJob) (s : State) : State :=
  pumpTable n { s with tables := Tab.modify s.tables n fun t => { t with jobs := t.jobs ++ [j] } }

/-- The block mover finishes: the shift is made and what waits on the table goes on (R398, R399). -/
def moverDone (n : Nat) (s : State) : State :=
  match Tab.get? s.tables n with
  | none => s
  | some t =>
    match t.move with
    | none => s
    | some m => pumpTable n { s with tables := Tab.set s.tables n (shiftIn t m) }

/-- Entries in order, 15 to each run of 16 (R397). -/
def spread (l : List KeyEntry) : Tab KeyEntry := (indexed l).map fun e => (e.1 / 15 * 16 + e.1 % 15, e.2)

/-- Some run of 16 positions has no hole. -/
def runFull (t : KeyTable) : Bool :=
  (List.range (tableCap t / 16)).any fun r => decide (16 ≤ (t.entries.filter fun e => decide (e.1 / 16 = r)).length)

/-- The background rebalance restores one hole per run while the table is no more than 15/16 full (R397). It passes no
entry through an absent segment (R411). -/
def rebalance (n : Nat) (s : State) : State :=
  match Tab.get? s.tables n with
  | none => s
  | some t =>
    if t.move.isNone && runFull t && decide (16 * t.entries.length ≤ 15 * tableCap t) && !tableMissing s t then
      { s with tables := Tab.set s.tables n (written 0 (tableCap t) { t with entries := spread (t.entries.map (·.2)) }) }
    else s

/-! ### Lookup (R400, R401) -/

/-- The result of a lookup. -/
structure Found where
  hit : Bool := false
  mhit : Bool := false
  missing : Bool := false
  count : Nat := 0
  prio : Nat := 0
  dat : Nat := 0
  index : Nat := 0
  deriving DecidableEq, Repr

/-- An entry matches a key: (K XOR VALUE) AND MASK is zero (R388). -/
def entryMatches (key : Nat) (e : KeyEntry) : Bool := decide ((key ^^^ e.value) &&& e.mask = 0)

/-- The entry of a position as its bank's row holds it. -/
def rowOf (t : KeyTable) (e : Nat × KeyEntry) : KeyEntry :=
  match Tab.get? t.upset e.1 with
  | some x => { e.2 with value := x.1, mask := x.2 }
  | none => e.2

/-- Searches the rows of the segments that are present, without those of `out` (R400, R401, R411). -/
def search (s : State) (t : KeyTable) (key : Nat) (out : Option Nat) : Found :=
  let l := t.entries.filter fun e =>
    posPresent s t e.1 && decide (some (segOf e.1) ≠ out) && entryMatches key (rowOf t e)
  let missing := tableMissing s t || out.isSome
  match l with
  | [] => { missing := missing }
  | e :: _ =>
    let n := (l.filter fun x => !x.2.moving && decide (x.2.prio = e.2.prio)).length
    { hit := true, mhit := decide (2 ≤ n), missing := missing, count := min 15 n, prio := e.2.prio, dat := e.2.dat,
      index := e.1 }

/-- A row becomes corrupt (R401, R402). -/
def upsetRow (u : KeyUpset) (s : State) : State :=
  { s with tables := Tab.modify s.tables u.table fun t =>
      if Tab.has t.entries u.pos then
        { t with upset := Tab.set t.upset u.pos (u.value, u.mask)
                 shadowBad := if u.shadowBad then t.shadowBad ++ [u.pos] else t.shadowBad }
      else t }

/-- A row differs from its shadow, or its shadow does not read (R401). -/
def rowBad (t : KeyTable) (p : Nat) : Bool := Tab.has t.upset p || t.shadowBad.contains p

/-- Rewrites a row and its shadow (R401, R402). -/
def rewriteRow (n p : Nat) (s : State) : State := { s with tables := Tab.modify s.tables n (written p p) }

/-- The class 0x09 entry of a row (R522). -/
def rowEntry (n p : Nat) (t : KeyTable) : LogEntry :=
  { level := 0, cls := 0x09, site := bankSite (((t.segs[segOf p]?).map (·.bank)).getD 0), addr := p, aux0 := n }

/-- One lookup of a key (R400, R401): a winner that differs from its shadow is discarded, its row rewritten, a masked
fault, and the lookup reissued; a second mismatch delivers a miss for the entry's segment and is a detected fault.
`again` are the rows that become corrupt before the reissue. -/
def lookup (n key : Nat) (again : List KeyUpset) (s : State) : Found × State :=
  match Tab.get? s.tables n with
  | none => ({}, s)
  | some t =>
    let f := search s t key none
    if !(f.hit && rowBad t f.index) then (f, s)
    else
      let s := again.foldl (fun s u => upsetRow u s) (recordMasked (rowEntry n f.index t) (rewriteRow n f.index s))
      match Tab.get? s.tables n with
      | none => ({}, s)
      | some t =>
        let f := search s t key none
        if !(f.hit && rowBad t f.index) then (f, s)
        else
          let s := recordDetected (rowEntry n f.index t) (rewriteRow n f.index s)
          (search s ((Tab.get? s.tables n).getD t) key (some (segOf f.index)), s)

/-- The upsets that arise before search `i` of a command, or before its reissue. -/
def upsetsAt (l : List (Nat × Bool × KeyUpset)) (i : Nat) (again : Bool) : List KeyUpset :=
  l.filterMap fun u => if u.1 = i ∧ u.2.1 = again then some u.2.2 else none

/-- Search `i` of a command, with the upsets that arise (R401). -/
def lookupWith (n key i : Nat) (upsets : List (Nat × Bool × KeyUpset)) (s : State) : Found × State :=
  lookup n key (upsetsAt upsets i true) ((upsetsAt upsets i false).foldl (fun s u => upsetRow u s) s)

/-! ### Key Array Configure (R392 to R395) -/

/-- Key-array units of a slice; slice 0 holds what no tenant slice holds (R391, R453). -/
def kaAllot (s : State) (n : Nat) : Nat :=
  if n = 0 then 512 - ((tenants s).map fun p => p.2.kaUnits).sum else (sliceOf s n).kaUnits

/-- The places that segments and their copies take: bank and segment number. -/
def takenPlaces (s : State) : List (Nat × Nat) :=
  s.tables.flatMap fun t => t.2.segs.flatMap fun g =>
    let own := (List.range t.2.width).map fun i => (g.bank + i, g.seg)
    match g.mirror with
    | some (b, q) => own ++ (List.range t.2.width).map fun i => (b + i, q)
    | none => own

/-- The lowest free group and segment of region `r` in a width, without the places of `taken` (R394). -/
def freeGroup (s : State) (taken : List (Nat × Nat)) (width r : Nat) : Option (Nat × Nat) :=
  let groups := (List.range (4 / width)).map fun i => 4 * r + i * width
  (groups.flatMap fun b => (List.range 16).map fun q => (b, q)).find? fun p =>
    (List.range width).all fun i => !taken.contains (p.1 + i, p.2) && !unitRetired s (bankSite (p.1 + i))

/-- Places of a group. -/
def groupPlaces (width : Nat) (p : Nat × Nat) : List (Nat × Nat) := (List.range width).map fun i => (p.1 + i, p.2)

/-- Places one segment: the regions to try, in order, that are not retired (R394). -/
def placeSegment (s : State) (taken : List (Nat × Nat)) (width : Nat) (mirror : Bool) : List Nat → Option Segment
  | [] => none
  | r :: rs =>
    match (if (region s r).state = .retired then none else freeGroup s taken width r) with
    | none => placeSegment s taken width mirror rs
    | some p =>
      if !mirror then some { bank := p.1, seg := p.2, mirror := none }
      else
        let r' := (r + 1) % 8
        match (if (region s r').state = .retired then none
               else freeGroup s (taken ++ groupPlaces width p) width r') with
        | some q => some { bank := p.1, seg := p.2, mirror := some q }
        | none => none

/-- Places `n` segments from order `i` on (R394). -/
def placeSegments (s : State) (width : Nat) (one mirror : Bool) (reg : Nat) :
    Nat → Nat → List (Nat × Nat) → Option (List Segment)
  | 0, _, _ => some []
  | n + 1, i, taken =>
    let order := if one then [reg] else (List.range 8).map fun k => (i % 8 + k) % 8
    match placeSegment s taken width mirror order with
    | none => none
    | some g =>
      let more := groupPlaces width (g.bank, g.seg) ++ (match g.mirror with
        | some q => groupPlaces width q
        | none => [])
      (placeSegments s width one mirror reg n (i + 1) (taken ++ more)).map fun l => g :: l

/-- A free table number: which one the spec leaves open (assumption 10). -/
def freeTableNo (s : State) : Option Nat :=
  let i := freeNat s % 512
  (Tab.lowestFree s.tables i (512 - i)).or (Tab.lowestFree s.tables 0 i)

/-- The fields of a create are valid (R392, R393). -/
def createValid (s : State) (b : List Byte) : Bool :=
  let w := field b 1 1
  let segs := field b 4 2
  let place := field b 6 1
  decide ((w = 1 ∨ w = 2 ∨ w = 4) ∧ 1 ≤ segs ∧ segs ≤ 512 / w ∧ field b 2 2 = 0 ∧ place < 4)
    && (if bit place 0 then decide (field b 7 1 < 8 ∧ (region s (field b 7 1)).state ≠ .retired) else decide (field b 7 1 = 0))
    && zeroAt b 8 56

/-- Creates a table (R393, R394). -/
def keyCreate (h : Sub) (sl : Nat) (b : List Byte) (s : State) : State :=
  if !createValid s b then refuse h sField s
  else
    let w := field b 1 1
    let segs := field b 4 2
    let place := field b 6 1
    let units := segs * w * (if bit place 1 then 2 else 1)
    match freeTableNo s with
    | none => refuse h (sVendor 0x87) s
    | some n =>
      if kaAllot s sl < (sliceOf s sl).kaUsed + units then refuse h (sVendor 0x87) s
      else match placeSegments s w (bit place 0) (bit place 1) (field b 7 1) segs 0 (takenPlaces s) with
        | none => refuse h (sVendor 0x8B) s
        | some gs =>
          let t : KeyTable := { slice := sl, width := w, segs := gs, mirror := bit place 1 }
          let s := drew 1 { s with tables := Tab.set s.tables n t }
          complete h sOk n 0 [] (modSlice sl (fun x => { x with kaUsed := x.kaUsed + units }) s)

/-- Units that a table charges (R391). -/
def tableUnits (t : KeyTable) : Nat := t.segs.length * t.width * (if t.mirror then 2 else 1)

/-- A change that still waits on a table that is destroyed: its host command names no table any more (R395; DEDUCED,
assumption 40). -/
def refuseJob (s : State) (j : KeyJob) : State :=
  match j.h with
  | some h => refuse h sField s
  | none => s

/-- Staged key operations on a table that is destroyed are discarded (R395). -/
def unstage (n : Nat) (k : Task) : Task :=
  { k with effects := k.effects.filter fun e => match e with
    | .keyInsert m _ _ _ _ => decide (m ≠ n)
    | .keyDelete m _ _ _ => decide (m ≠ n)
    | _ => true }

/-- Removes a table: its segments and its charge return (R395). -/
def removeTable (n : Nat) (s : State) : State :=
  match Tab.get? s.tables n with
  | none => s
  | some t =>
    let s := t.jobs.foldl refuseJob { s with tables := Tab.erase s.tables n, tasks := s.tasks.map fun k => (k.1, unstage n k.2) }
    modSlice t.slice (fun x => { x with kaUsed := x.kaUsed - tableUnits t }) s

/-- Empties a table; what still waits on it goes on (R395). -/
def clearTable (n : Nat) (t : KeyTable) (s : State) : State :=
  pumpTable n { s with tables := Tab.set s.tables n (written 0 (tableCap t) { t with entries := [], move := none }) }

/-- The fields of a destroy or a clear are valid (R392). -/
def tableOpValid (b : List Byte) : Bool :=
  decide (field b 1 1 = 0 ∧ field b 2 2 < 512) && zeroAt b 4 60

/-- Key Array Configure by its OP (R392 to R395). -/
def keyConfigure (h : Sub) (sl : Nat) (d : Cdw) (data : List Byte) (s : State) : State :=
  let b := fit 64 data
  if !decide (d = {}) then refuse h sField s
  else if field b 0 1 = 1 then keyCreate h sl b s
  else if field b 0 1 = 2 ∨ field b 0 1 = 3 then
    let n := field b 2 2
    match (if tableOpValid b then Tab.get? s.tables n else none) with
    | none => refuse h sField s
    | some t =>
      if t.slice ≠ sl then refuse h sField s
      else if field b 0 1 = 2 then completeOk h (removeTable n s)
      else completeOk h (clearTable n t s)
  else refuse h sField s

/-- Key Array Configure, create (R393). -/
def execKeyTableCreate (h : Sub) (d : Cdw) (data : List Byte) (s : State) : Out :=
  .next (keyConfigure h (actSlice s h) d data s)

/-- Key Array Configure, destroy (R395). -/
def execKeyTableDestroy (h : Sub) (d : Cdw) (data : List Byte) (s : State) : Out :=
  .next (keyConfigure h (actSlice s h) d data s)

/-- Key Array Configure, clear (R395). -/
def execKeyTableClear (h : Sub) (d : Cdw) (data : List Byte) (s : State) : Out :=
  .next (keyConfigure h (actSlice s h) d data s)

/-! ### Key Lookup, Key Insert, Key Delete (R405 to R407) -/

/-- The table that a batch names, when its header and length are valid (R405). -/
def batchTable (s : State) (sl : Nat) (d : Cdw) (data : List Byte) (itemBytes : Nat → Nat) : Option (Nat × KeyTable) :=
  let n := field data 0 2
  let count := field data 2 2
  match Tab.get? s.tables n with
  | none => none
  | some t =>
    if t.slice = sl ∧ 1 ≤ count ∧ count ≤ 256 ∧ zeroAt data 4 12 = true
        ∧ d.d10.toNat = 16 + count * itemBytes t.width ∧ data.length = d.d10.toNat then some (n, t) else none

/-- The items of a batch. -/
def batchItems (data : List Byte) (size : Nat) : List (List Byte) :=
  (List.range (field data 2 2)).map fun i => slice data (16 + i * size) size

/-- Result bytes of one key (R406). -/
def foundBytes (f : Found) : List Byte :=
  toLe 8 f.dat ++ toLe 4 f.index ++ toLe 2 f.prio
    ++ toLe 1 (flagBit f.hit 0 + flagBit f.mhit 1 + flagBit f.missing 2) ++ toLe 1 f.count

/-- Looks up the keys of a batch in order (R404, R406). -/
def lookupAll (n : Nat) (upsets : List (Nat × Bool × KeyUpset)) : Nat → List (List Byte) → State → List Found × State
  | _, [], s => ([], s)
  | i, k :: ks, s =>
    let r := lookupWith n (ofLe k) i upsets s
    let rest := lookupAll n upsets (i + 1) ks r.2
    (r.1 :: rest.1, rest.2)

/-- Key Lookup searches a batch and writes its results to the host (R400, R405, R406). -/
def execKeyLookup (h : Sub) (d : Cdw) (data : List Byte) (upsets : List (Nat × Bool × KeyUpset))
    (s : State) : Out :=
  .next (
    match batchTable s (actSlice s h) d data (fun w => 20 * w) with
    | none => refuse h sField s
    | some (n, t) =>
      let count := field data 2 2
      if d.d11 ≠ 0 ∨ d.d15 ≠ 0 ∨ d.d12.toNat % 16 ≠ 0 ∨ d.d14.toNat < 16 * count then refuse h sField s
      else
        let r := lookupAll n upsets 0 (batchItems data (20 * t.width)) s
        complete h sOk (r.1.filter (·.hit)).length 0 (r.1.flatMap foundBytes) r.2)

/-- An entry of an insert or delete item; the device stores VALUE AND MASK (R388). -/
def itemEntry (w : Nat) (b : List Byte) : KeyEntry :=
  { value := field b 0 (20 * w) &&& field b (20 * w) (20 * w), mask := field b (20 * w) (20 * w),
    prio := field b (40 * w) 2, dat := field b (40 * w + 8) 8 }

/-- The Rsvd bytes of an item are zero (R405). -/
def itemValid (w : Nat) (b : List Byte) : Bool := zeroAt b (40 * w + 2) 6

/-- Key Insert applies its entries in order (R396, R407). -/
def execKeyInsert (h : Sub) (d : Cdw) (data : List Byte) (s : State) : Out :=
  .next (
    match batchTable s (actSlice s h) d data (fun w => 40 * w + 16) with
    | none => refuse h sField s
    | some (n, t) =>
      let items := batchItems data (40 * t.width + 16)
      if d.d11 ≠ 0 ∨ d.d12 ≠ 0 ∨ d.d13 ≠ 0 ∨ d.d14 ≠ 0 ∨ d.d15 ≠ 0 ∨ items.all (itemValid t.width) = false then
        refuse h sField s
      else enterJob n { h := some h, insert := true, items := items.map (itemEntry t.width) } s)

/-- Key Delete removes the entries named by content (R407). -/
def execKeyDelete (h : Sub) (d : Cdw) (data : List Byte) (s : State) : Out :=
  .next (
    match batchTable s (actSlice s h) d data (fun w => 40 * w + 8) with
    | none => refuse h sField s
    | some (n, t) =>
      let items := batchItems data (40 * t.width + 8)
      if d.d11 ≠ 0 ∨ d.d12 ≠ 0 ∨ d.d13 ≠ 0 ∨ d.d14 ≠ 0 ∨ d.d15 ≠ 0 ∨ items.all (itemValid t.width) = false then
        refuse h sField s
      else enterJob n { h := some h, insert := false, items := items.map (itemEntry t.width) } s)

/-- The block mover finishes shifting entries toward a hole (R399). -/
def execMoverShift (table : Nat) (s : State) : Out := .next (moverDone table s)

/-- Background rebalance restores one hole per run (R397). -/
def execHoleRebalance (table : Nat) (s : State) : Out := .next (rebalance table s)

/-- Positions of a table that lie in a bank (R389, R390). -/
def inBank (k : Nat) (t : KeyTable) (p : Nat) : Bool :=
  (t.segs[segOf p]?).any fun g => decide (g.bank ≤ k ∧ k < g.bank + t.width)

/-- A bank's sweep of one table: every corrupt row is rewritten and recorded as a detected fault (R402). -/
def sweepTable (k : Nat) (s : State) (n : Nat) : State :=
  match Tab.get? s.tables n with
  | none => s
  | some t =>
    let bad := (t.entries.map (·.1)).filter fun p => inBank k t p && rowBad t p
    pumpTable n (bad.foldl (fun s p => recordDetected (rowEntry n p t) (rewriteRow n p s)) s)

/-- A bank compares every row with its shadow (R402); what waited for its segments goes on (R411). -/
def execBankShadowSweep (bank : Fin 32) (upsets : List KeyUpset) (s : State) : Out :=
  .next (
    let s := upsets.foldl (fun s u => upsetRow u s) s
    if bankPresent s bank.val then (s.tables.map (·.1)).foldl (sweepTable bank.val) s else s)

/-! ### Program ports (R408, R409) -/

/-- The number that port words hold, 5W words (R408). -/
def portKey (x : Vector Word 20) (w : Nat) : Nat :=
  ((List.range 20).map fun i => if h : i < 20 then (if i < 5 * w then x[i].toNat * 2 ^ (32 * i) else 0) else 0).sum

/-- The table a task names, of its slice (R408). -/
def kaTableOf (v : View) (s : State) : Option (Nat × KeyTable) :=
  let n := bits v.task.ports.kaTable.toNat 8 0
  match Tab.get? s.tables n with
  | some t => if t.slice = v.task.slice then some (n, t) else none
  | none => none

/-- A read of KA_LOOK (R408). -/
def kaLook (v : View) (upsets : List (Nat × Bool × KeyUpset)) (s : State) : Word × State :=
  match kaTableOf v s with
  | none => (BitVec.ofNat 32 (2 ^ 28 + 1), s)
  | some (n, t) =>
    let r := lookupWith n (portKey v.task.ports.kaKey t.width) 0 upsets s
    let f := r.1
    let x := flagBit f.hit 31 + flagBit f.mhit 30 + flagBit f.missing 29 + f.count * 2 ^ 24 + f.prio % 65536
    (BitVec.ofNat 32 x, modPorts v.t (fun p => { p with
      kaRdlo := BitVec.ofNat 32 f.dat
      kaRdhi := BitVec.ofNat 32 (f.dat / 2 ^ 32)
      kaRidx := BitVec.ofNat 32 f.index }) r.2)

/-- The entry that the ports hold; VALUE is masked (R388, R408). -/
def portEntry (k : Task) (w : Nat) : KeyEntry :=
  let m := portKey k.ports.kaMask w
  { value := portKey k.ports.kaKey w &&& m, mask := m, prio := k.ports.kaPrio.toNat % 65536,
    dat := k.ports.kaDhi.toNat * 2 ^ 32 + k.ports.kaDlo.toNat }

/-- A table that can take no further entry of this content. -/
def tableFullFor (t : KeyTable) (e : KeyEntry) : Bool :=
  decide (tableCap t ≤ (t.entries.filter fun x => !x.2.moving).length) && !(t.entries.any fun x => sameKey x.2 e)

/-- A read of KA_INSERT or KA_DELETE: staged at program privilege, applied at once at firmware privilege (R409). -/
def kaChange (v : View) (ins : Bool) (s : State) : Word × State :=
  match kaTableOf v s with
  | none => (0x01, s)
  | some (n, t) =>
    let e := portEntry v.task t.width
    if viewFw v then
      if ins && tableFullFor t e then (0x8B, s)
      else (0, enterJob n { h := none, insert := ins, items := [e] } s)
    else if 256 ≤ v.task.keyOps then (0x06, s)
    else
      let x : HeldEffect := if ins then .keyInsert n e.value e.mask e.prio e.dat else .keyDelete n e.value e.mask e.prio
      (0, modTask v.t (fun k => { k with keyOps := k.keyOps + 1, effects := k.effects ++ [x] }) s)

/-- Reads of ports 0x0400 to 0x04FF, by offset (R408). -/
def keyPortRead (v : View) (p : Nat) (s : State) : Word × State :=
  let q := v.task.ports
  if h : 0x01 ≤ p ∧ p < 0x15 then (q.kaKey[p - 1]'(by omega), s)
  else if h : 0x15 ≤ p ∧ p < 0x29 then (q.kaMask[p - 0x15]'(by omega), s)
  else match p with
    | 0x00 => (q.kaTable, s)
    | 0x29 => (q.kaPrio, s)
    | 0x2A => (q.kaDlo, s)
    | 0x2B => (q.kaDhi, s)
    | 0x2C => kaLook v [] s
    | 0x2D => kaChange v true s
    | 0x2E => kaChange v false s
    | 0x2F => (q.kaRdlo, s)
    | 0x30 => (q.kaRdhi, s)
    | 0x31 => (q.kaRidx, s)
    | _ => (0, s)

/-- Writes of ports 0x0400 to 0x04FF, by offset (R408). -/
def keyPortWrite (v : View) (p : Nat) (x : Word) (s : State) : State :=
  if h : 0x01 ≤ p ∧ p < 0x15 then modPorts v.t (fun q => { q with kaKey := q.kaKey.set (p - 1) x (by omega) }) s
  else if h : 0x15 ≤ p ∧ p < 0x29 then
    modPorts v.t (fun q => { q with kaMask := q.kaMask.set (p - 0x15) x (by omega) }) s
  else match p with
    | 0x00 => modPorts v.t (fun q => { q with kaTable := x &&& 0x1FF#32 }) s
    | 0x29 => modPorts v.t (fun q => { q with kaPrio := x &&& 0xFFFF#32 }) s
    | 0x2A => modPorts v.t (fun q => { q with kaDlo := x }) s
    | 0x2B => modPorts v.t (fun q => { q with kaDhi := x }) s
    | _ => s

end Sys2Proof.Machine
end

