-- ==== Sys2Proof/Machine/OpSys.lean ====
section
/-! DEFINITION. Special registers, control transfer and the system instructions of Opxus (R278, R303 to R309, R315). -/

namespace Sys2Proof.Machine

/-- The value of special register `n`; none where the read is a privileged operation or illegal (R278). -/
def readSpecial (v : View) (n : Nat) : Except Nat Word :=
  match n with
  | 0 => .ok (viewPc v)
  | 1 => .ok v.task.ds
  | 2 => .ok v.task.dlim
  | 3 => .ok (rsdOf v)
  | 4 => .ok (tidOf v.t v.task)
  | 5 => .ok (BitVec.ofNat 32 v.task.slice)
  | 6 => .ok (BitVec.ofNat 32 v.c)
  | 7 => .ok v.task.steps
  | 8 => .ok (flagsValue v)
  | 9 => if viewFw v then .ok v.core.tcause else .error 0x02
  | 10 => if viewFw v then .ok v.core.tpc else .error 0x02
  | 11 => if viewFw v then .ok v.core.tval else .error 0x02
  | 12 => if viewFw v then .ok v.core.tstat else .error 0x02
  | 13 => if viewFw v then .ok v.core.tbase else .error 0x02
  | _ => .error 0x01

/-- A write of special register `n` (R278, R303, R305). -/
def writeSpecial (v : View) (n : Nat) (x : Word) : Except Nat View :=
  match n with
  | 1 => .ok { v with task := { v.task with ds := x } }
  | 2 => .ok { v with task := { v.task with dlim := x } }
  | 7 =>
    if viewFw v then
      .ok (if v.task.fw then v else { v with task := { v.task with steps := x, exhausted := false } })
    else .error 0x02
  | 8 => .ok (writeFlags v x)
  | 10 => if v.core.trapped then .ok { v with core := { v.core with tpc := x &&& 0xFFFFFF#32 } } else .error 0x02
  | 12 => if v.core.trapped then .ok { v with core := { v.core with tstat := x &&& 0x8000FFFF#32 } } else .error 0x02
  | 13 => if viewFw v then .ok { v with core := { v.core with tbase := x &&& 0xFFFFC0#32 } } else .error 0x02
  | n => if n < 14 then .error 0x02 else .error 0x01

/-- `mfs` (R304). -/
def execOpMfs (c : CoreId) (g : Guard) (d : Reg) (n : BitVec 12) (s : State) : Out :=
  let w := encI g 0x1A d.val 0 n
  .next (issue c g w true (fun v s =>
    match readSpecial v n.toNat with
    | .ok x => .retire (putView (wr v d x) s)
    | .error cause => .trap s cause w 0) s)

/-- `mts` (R304, R305). -/
def execOpMts (c : CoreId) (g : Guard) (a : Reg) (n : BitVec 12) (s : State) : Out :=
  let w := encI g 0x1B 0 a.val n
  .next (issue c g w true (fun v s =>
    match writeSpecial v n.toNat (rd v a) with
    | .ok v => .retire (putView v s)
    | .error cause => .trap s cause w 0) s)

/-! ### Control transfer (R306) -/

/-- A jump that pushes nothing. -/
def jumpBody (target : View → Word) (v : View) (s : State) : Issued :=
  if targetOk s v (target v) then .jump s (target v) else .trap s 0x09 (target v) 0

/-- A jump that pushes pc + 4; a full return stack is checked first (R290, R310). -/
def callBody (target : View → Word) (v : View) (s : State) : Issued :=
  match pushReturn v (viewPc v + 4) with
  | none => .trap s 0x0B (rsdOf v) 0
  | some v' => if targetOk s v (target v) then .jump (putView v' s) (target v) else .trap s 0x09 (target v) 0

/-- The body of `ret` (R290, R306). -/
def retBody (v : View) (s : State) : Issued :=
  match popReturn v with
  | none => .trap s 0x0C 0 0
  | some (x, v') => if targetOk s v x then .jump (putView v' s) x else .trap s 0x09 x 0

/-- `br` (R306). -/
def execOpBr (c : CoreId) (g : Guard) (off : BitVec 22) (s : State) : Out :=
  .next (issue c g (encB g 0x20 off) true (jumpBody fun v => branchTarget v off) s)

/-- `call` (R306). -/
def execOpCall (c : CoreId) (g : Guard) (off : BitVec 22) (s : State) : Out :=
  .next (issue c g (encB g 0x21 off) true (callBody fun v => branchTarget v off) s)

/-- `ji` (R306). -/
def execOpJi (c : CoreId) (g : Guard) (a : Reg) (s : State) : Out :=
  .next (issue c g (encG g 0x22 0 a.val 0 0) true (jumpBody fun v => rd v a) s)

/-- `calli` (R306). -/
def execOpCalli (c : CoreId) (g : Guard) (a : Reg) (s : State) : Out :=
  .next (issue c g (encG g 0x22 0 a.val 0 1) true (callBody fun v => rd v a) s)

/-- `ret` (R306). -/
def execOpRet (c : CoreId) (g : Guard) (s : State) : Out :=
  .next (issue c g (encG g 0x22 0 0 0 2) true retBody s)

/-! ### The system group (R307, R308) -/

/-- Takes the flags of a satisfied mask: they are returned and cleared in one step (R307, R308). -/
def takeFlags (mask : Word) (k : Task) : Task := { k with flags := k.flags &&& ~~~ mask }

/-- The body of `wait` and `wait.all`: a zero mask or a satisfied one completes at once; otherwise the task leaves its
core and waits (R307, R308, R325). -/
def waitBody (all : Bool) (d a : Reg) (v : View) (s : State) : Issued :=
  afterStores v s fun v s =>
    let m := rd v a
    if m = 0 then .retire (putView (wr v d 0) s)
    else if maskMet v.task.flags m all then
      .retire (putView (wr { v with task := takeFlags m v.task } d (v.task.flags &&& m)) s)
    else
      let s := retireAt v (viewPc v + 4) s
      let s := modTask v.t (fun k => { k with mask := m, maskAll := all, waitReg := some d, phase := .waiting }) s
      .done (leaveCore v.t s)

/-- `wait` (R307). -/
def execOpWait (c : CoreId) (g : Guard) (d a : Reg) (s : State) : Out :=
  .next (issue c g (encG g 0x28 d.val a.val 0 0) true (waitBody false d a) s)

/-- `wait.all` (R307). -/
def execOpWaitAll (c : CoreId) (g : Guard) (d a : Reg) (s : State) : Out :=
  .next (issue c g (encG g 0x28 d.val a.val 0 1) true (waitBody true d a) s)

/-- The task a tid names, when it exists and may be signalled: firmware any, a program its own slice's (R308). -/
def signalTarget (s : State) (v : View) (tid : Word) : Option Nat :=
  let i := tid.toNat % 16384
  match taskOf s i with
  | some k => if tidOf i k = tid ∧ (viewFw v = true ∨ k.slice = v.task.slice) then some i else none
  | none => none

/-- The body of `sigev`: replayed after a restart (R338), else delivered or refused (R307, R308). -/
def sigevBody (d a b : Reg) (v : View) (s : State) : Issued :=
  afterStores v s fun v s =>
    match v.task.sigevLog[v.task.sigevs]? with
    | some x => .retire (putView (wr { v with task := { v.task with sigevs := v.task.sigevs + 1 } } d x) s)
    | none =>
      let hit := signalTarget s v (rd v a)
      let r : Word := if hit.isSome then 0 else 1
      let f := bits (rd v b).toNat 4 0
      let k := { v.task with sigevs := v.task.sigevs + 1, sigevLog := v.task.sigevLog ++ [r] }
      let s := putView (wr { v with task := k } d r) s
      .retire (match hit with
        | some i => setFlag i f s
        | none => s)

/-- `sigev` (R307). -/
def execOpSigev (c : CoreId) (g : Guard) (d a b : Reg) (s : State) : Out :=
  .next (issue c g (encG g 0x28 d.val a.val b.val 2) true (sigevBody d a b) s)

/-- `yield`: the task gives up its core and stays ready (R307). -/
def execOpYield (c : CoreId) (g : Guard) (s : State) : Out :=
  .next (issue c g (encG g 0x28 0 0 0 3) true (fun v s =>
    afterStores v s fun v s =>
      let s := retireAt v (viewPc v + 4) s
      let now := s.datum
      .done (leaveCore v.t (modTask v.t (fun k => { k with phase := .ready, readySince := now }) s))) s)

/-- `fence` (R284). -/
def execOpFence (c : CoreId) (g : Guard) (s : State) : Out :=
  .next (issue c g (encG g 0x28 0 0 0 4) true (fun v s => afterStores v s fun _ s => .retire s) s)

/-- The end status that `halt` gives: 0x80 to 0xFF are treated as 0x83 (R331). -/
def haltStatus (x : Word) : Nat := if x.toNat % 256 < 0x80 then x.toNat % 256 else 0x83

/-- `halt` (R307, R331). -/
def execOpHalt (c : CoreId) (g : Guard) (a : Reg) (s : State) : Out :=
  .next (issue c g (encG g 0x28 0 a.val 0 5) true (fun v s =>
    afterStores v s fun v s => .done (endTask v.t (haltStatus (rd v a)) (retireAt v (viewPc v + 4) s))) s)

/-- `tret`: a privileged operation at program privilege or with TRAPPED clear (R315). -/
def execOpTret (c : CoreId) (g : Guard) (s : State) : Out :=
  let w := encG g 0x28 0 0 0 6
  .next (issue c g w true (fun v s =>
    if v.core.trapped then
      let u := coreOf s v.c
      let u := { u with trapped := false, fw := u.tstat.getLsbD 31, slot := u.tstat.toNat % 65536 }
      .done (modTask v.t (fun k => { k with pc := u.tpc }) (setCore s v.c u))
    else .trap s 0x02 w 0) s)

/-- `trap`: trap 0x0D with IMM as the service code (R308). -/
def execOpTrap (c : CoreId) (g : Guard) (imm : BitVec 12) (s : State) : Out :=
  .next (issue c g (encI g 0x29 0 0 imm) true (fun _ s => .trap s 0x0D (imm.zeroExtend 32) imm.toNat) s)

/-- A program task fetches with its budget exhausted: trap 0x0E (R303). -/
def execStepBudgetExhausted (c : CoreId) (s : State) : Out :=
  .next (match running s c with
    | some v => if !viewFw v && v.task.exhausted then takeTrap v 0x0E 0 0 s else s
    | none => s)

end Sys2Proof.Machine
end

