-- ==== Sys2Proof/Machine/Programs.lean ====
section
/-! DEFINITION. Program slots (R355 to R359) and pattern sets (R414 to R420): images, their checks, loading and removal;
the automaton of a set (R416, R417) and filter memory (R420). -/

namespace Sys2Proof.Machine

/-! ### Lersuyth images (R355, R356) -/

/-- CODE_LEN of an image. -/
def imgCode (b : List Byte) : Nat := field b 12 4
/-- DATA_LEN of an image. -/
def imgData (b : List Byte) : Nat := field b 16 4
/-- ZERO_LEN of an image. -/
def imgZero (b : List Byte) : Nat := field b 20 4
/-- STACK_LEN of an image. -/
def imgStack (b : List Byte) : Nat := field b 24 4
/-- SIGNED (R355). -/
def imgSigned (b : List Byte) : Bool := bit (field b 6 2) 0

/-- Code and data sections. -/
def imgBody (b : List Byte) : List Byte := slice b 128 (imgCode b + imgData b)

/-- The header fields lie in their ranges (R355, R356). -/
def headerOk (b : List Byte) : Bool :=
  decide (field b 0 4 = 0x3159534C ∧ field b 4 2 = 1 ∧ field b 6 2 < 2)
    && decide (imgCode b % 4 = 0 ∧ 4 ≤ imgCode b ∧ imgCode b ≤ 16777216)
    && decide (field b 8 4 % 4 = 0 ∧ field b 8 4 < imgCode b)
    && decide (imgData b % 4 = 0 ∧ imgZero b % 4 = 0 ∧ imgStack b % 4 = 0 ∧ 256 ≤ imgStack b)
    && decide (imgData b + imgZero b + imgStack b ≤ 16777216)
    && decide (field b 28 4 = 1 ∨ field b 28 4 = 2) && zeroAt b 56 8 && zeroAt b 96 32

/-- The trailer of a signed image: public key and signature. -/
def imgTrailer (b : List Byte) : List Byte := b.drop (128 + imgCode b + imgData b)

/-- An image is valid (R356). -/
def imageValid (b : List Byte) : Bool :=
  headerOk b && decide (b.length = 128 + imgCode b + imgData b + (if imgSigned b then 128 else 0))
    && decide (slice b 64 32 = sha256 (b.take 64 ++ imgBody b))
    && (!imgSigned b || Config.ecdsaVerify ((imgTrailer b).take 64) (sha256 (b.take 96)) (slice (imgTrailer b) 64 64))

/-- Slots that a slice may hold; slice 0 has those that no tenant slice's share takes, at most 16 (R357, R453). -/
def slotShare (s : State) (sl : Nat) : Nat :=
  if sl = 0 then min 16 (1024 - ((tenants s).map fun p => p.2.slots).sum) else (sliceOf s sl).slots

/-- Slots that a slice holds, closing ones included (R359). -/
def slotsHeld (s : State) (sl : Nat) : Nat := (s.progs.filter fun p => decide (p.2.slice = sl)).length

/-- The slot that an image becomes (R356). -/
def slotFrom (sl : Nat) (b : List Byte) : ProgSlot :=
  { slice := sl, entry := field b 8 4, code := slice b 128 (imgCode b), data := slice b (128 + imgCode b) (imgData b),
    zeroLen := imgZero b, stackLen := imgStack b, isa := field b 28 1, version := field b 32 8, name := slice b 40 16,
    keyfp := if imgSigned b then sha256 ((imgTrailer b).take 64) else zeros 32 }

/-- Program Load (R358). -/
def programLoad (h : Sub) (sl : Nat) (d : Cdw) (data : List Byte) (s : State) : State :=
  let n := d.d10.toNat
  let b := fit n data
  if n % 4 ≠ 0 ∨ n < 132 ∨ 33554432 < n ∨ d.d11 ≠ 0 ∨ d.d12 ≠ 0 ∨ d.d13 ≠ 0 ∨ d.d14 ≠ 0 ∨ d.d15 ≠ 0 then refuse h sField s
  else if !imageValid b then refuse h (sVendor 0x8D) s
  else match Tab.lowestFree s.progs 0 1024 with
    | none => refuse h (sVendor 0x87) s
    | some i =>
      let mib := mibOf (imgCode b + imgData b)
      if slotShare s sl ≤ slotsHeld s sl ∨ dramRoom s sl mib = false then refuse h (sVendor 0x87) s
      else complete h sOk i 0 [] (charge sl mib { s with progs := Tab.set s.progs i (slotFrom sl b) })

/-- Program Unload (R359). -/
def programUnload (h : Sub) (sl : Nat) (d : Cdw) (s : State) : State :=
  let i := d.d10.toNat
  match (if i < 1024 then Tab.get? s.progs i else none) with
  | none => refuse h sField s
  | some g =>
    if g.slice ≠ sl ∨ g.closing = true then refuse h sField s
    else completeOk h (freeSlotIfDone i { s with progs := Tab.set s.progs i { g with closing := true } })

/-- Program Load validates an image and places it in the lowest free slot (R358). -/
def execProgramLoad (h : Sub) (d : Cdw) (data : List Byte) (s : State) : Out := .next (programLoad h (actSlice s h) d data s)

/-- Program Unload closes a slot (R359). -/
def execProgramUnload (h : Sub) (d : Cdw) (s : State) : Out := .next (programUnload h (actSlice s h) d s)

/-! ### Compiled pattern sets (R414, R416 to R418) -/

/-- NPAT. -/
def psNpat (b : List Byte) : Nat := field b 6 2
/-- NSTATE. -/
def psNstate (b : List Byte) : Nat := field b 8 4
/-- NTRANS. -/
def psNtrans (b : List Byte) : Nat := field b 12 4
/-- NREP. -/
def psNrep (b : List Byte) : Nat := field b 16 4
/-- SPAN. -/
def psSpan (b : List Byte) : Nat := field b 20 2
/-- START. -/
def psStart (b : List Byte) : Nat := field b 22 2
/-- TABLE_LEN. -/
def psLen (b : List Byte) : Nat := field b 24 4

/-- Entry `p` of the pattern table. -/
def psPattern (b : List Byte) (p : Nat) : Nat := field b (320 + 4 * p) 4
/-- State record `q`. -/
def psState (b : List Byte) (q : Nat) : Nat := field b (320 + 4 * psNpat b + 8 * q) 8
/-- Transition `i`. -/
def psTrans (b : List Byte) (i : Nat) : Nat := field b (320 + 4 * psNpat b + 8 * psNstate b + 4 * i) 4
/-- Entry `r` of the report lists. -/
def psReport (b : List Byte) (r : Nat) : Nat := field b (320 + 4 * psNpat b + 8 * psNstate b + 4 * psNtrans b + 2 * r) 2

/-- Bytes of the sections before padding (R416). -/
def psBytes (b : List Byte) : Nat := 256 + 4 * psNpat b + 8 * psNstate b + 4 * psNtrans b + 2 * psNrep b

/-- The pattern table is valid, and the header's SPAN is the largest (R418). -/
def psPatternsOk (b : List Byte) : Bool :=
  let l := (List.range (psNpat b)).map fun p => psPattern b p % 65536
  (l.all fun x => decide (1 ≤ x ∧ x ≤ 4096)) && decide (psSpan b = l.foldl max 0)

/-- Report lists: an entry below NREP with LAST follows each that is named, and every index is below NPAT (R418). -/
def psReportsOk (b : List Byte) : Bool :=
  (List.range (psNrep b)).all fun r => decide (psReport b r % 32768 < 256 ∧ psReport b r % 256 < psNpat b)

/-- State records are valid (R418). -/
def psStatesOk (b : List Byte) : Bool :=
  (List.range (psNstate b)).all fun q =>
    let x := psState b q
    let rep := bits x 23 8
    decide (bits x 39 24 < psNstate b ∧ bits x 7 0 = 0)
      && (decide (rep = 0xFFFF) || (decide (rep < psNrep b)
        && (List.range (psNrep b)).any fun r => decide (rep ≤ r) && bit (psReport b r) 15))

/-- A compiled set is valid (R416, R418). -/
def setValid (b : List Byte) : Bool :=
  decide (field b 0 4 = 0x31545350 ∧ field b 4 2 = 1 ∧ 1 ≤ psNpat b ∧ psNpat b ≤ 256)
    && decide (1 ≤ psNstate b ∧ psNstate b ≤ 65536 ∧ 1 ≤ psNrep b ∧ psNrep b ≤ 65535)
    && decide (psLen b = 4 * ceilDiv (psBytes b) 4 ∧ psLen b ≤ 1048576 ∧ b.length = 64 + psLen b)
    && zeroAt b 28 4 && decide (slice b 32 32 = sha256 (b.take 32 ++ b.drop 64))
    && decide (psStart b < psNstate b)
    && ((List.range (psNtrans b)).all fun i => decide (psTrans b i % 65536 < psNstate b))
    && psPatternsOk b && psReportsOk b && psStatesOk b && zeroAt b (64 + psBytes b) (psLen b - psBytes b)

/-- One step of the automaton (R417). -/
def psStep (b : List Byte) (q : Nat) (x : Byte) : Nat :=
  let r := psState b q
  let i := bits r 63 40 + field b (64 + x.toNat) 1
  if i < psNtrans b ∧ psTrans b i / 65536 = q then psTrans b i % 65536 else bits r 39 24

/-- The REPORT values of a list from entry `r` through the first with LAST (R417). -/
def psReports (b : List Byte) : Nat → Nat → List Nat
  | 0, _ => []
  | fuel + 1, r =>
    let x := psReport b r
    psPattern b (x % 256) / 65536 :: (if bit x 15 then [] else psReports b fuel (r + 1))

/-- What state `q` reports. -/
def psReportsOf (b : List Byte) (q : Nat) : List Nat :=
  let r := bits (psState b q) 23 8
  if r = 0xFFFF then [] else (psReports b (psNrep b) r).eraseDups

/-- Runs the automaton from state `q` over bytes that begin at position `pos`: (end position, REPORT) in order (R417). -/
def psRun (b : List Byte) : Nat → Nat → List Byte → List (Nat × Nat)
  | _, _, [] => []
  | q, pos, x :: xs =>
    let q' := psStep b q x
    (psReportsOf b q').map (fun r => (pos, r)) ++ psRun b q' (pos + 1) xs

/-! ### Pattern Set Load (R415) -/

/-- A scan or a task's filter scan that is busy runs the image. -/
def setInUse (s : State) (image : List Byte) : Bool :=
  (s.scans.any fun q => decide (q.image = image))
    || s.waitingInvokes.any (fun w => match w with
        | .scan q _ => decide (q.image = image)
        | .invoke _ => false)
    || s.tasks.any fun k => k.2.tickets.any fun e => decide (e.2.state = .busy ∧ e.2.image = image)

/-- Frees the memory of sets that were removed or replaced and that no scan uses any more (R415). -/
def sweepSets (s : State) : State :=
  let gone := s.oldSets.filter fun e => !setInUse s e.2.image
  gone.foldl (fun s e => credit e.2.slice e.2.mib s) { s with oldSets := s.oldSets.filter fun e => setInUse s e.2.image }

/-- A set leaves its number: its memory is freed once no scan uses it (R415). -/
def dropSet (n : Nat) (s : State) : State :=
  match Tab.get? s.sets n with
  | none => s
  | some p =>
    sweepSets { s with sets := Tab.erase s.sets n, oldSets := s.oldSets ++ [(n, p)] }

/-- A set of a slice. -/
def setFor (s : State) (sl n : Nat) : Option PatternSet :=
  (Tab.get? s.sets n).bind fun p => if p.slice = sl then some p else none

/-- Sets that a slice holds. -/
def setsHeld (s : State) (sl : Nat) : Nat := (s.sets.filter fun p => decide (p.2.slice = sl)).length

/-- Pattern Set Load (R415). -/
def patternSetLoad (h : Sub) (sl : Nat) (d : Cdw) (data : List Byte) (s : State) : State :=
  let len := d.d10.toNat
  let n := bits d.d11.toNat 15 0
  let remove := d.d11.getLsbD 16
  let b := fit len data
  let fresh := decide (n = 0xFFFF)
  if 2 ^ 17 ≤ d.d11.toNat ∨ d.d12 ≠ 0 ∨ d.d13 ≠ 0 ∨ d.d14 ≠ 0 ∨ d.d15 ≠ 0 then refuse h sField s
  else if (fresh && remove) || (!fresh && (setFor s sl n).isNone) then refuse h sField s
  else if remove then (if len ≠ 0 then refuse h sField s else complete h sOk n 0 [] (dropSet n s))
  else if len % 4 ≠ 0 ∨ len < 336 ∨ 1048640 < len then refuse h sField s
  else if !setValid b then refuse h (sVendor 0x8D) s
  else match (if fresh then (if setsHeld s sl < 16 then Tab.lowestFree s.sets 0 1024 else none) else some n) with
    | none => refuse h (sVendor 0x87) s
    | some i =>
      let mib := mibOf (psLen b)
      if dramRoom s sl mib = false then refuse h (sVendor 0x87) s
      else
        let s := dropSet i s
        complete h sOk i 0 [] (charge sl mib { s with sets := Tab.set s.sets i { slice := sl, image := b, mib := mib } })

/-- Pattern Set Load validates and stores a new or replacement set (R415). -/
def execPatternSetLoad (h : Sub) (d : Cdw) (data : List Byte) (s : State) : Out :=
  .next (patternSetLoad h (actSlice s h) d data s)

/-- Pattern Set Load with REMOVE removes a set (R415). -/
def execPatternSetRemove (h : Sub) (d : Cdw) (s : State) : Out := .next (patternSetLoad h (actSlice s h) d [] s)

/-! ### Filter memory (R420) -/

/-- Table bytes of a compiled set. -/
def setBytes (image : List Byte) : Nat := image.length - 64

/-- Keeps the most recently used sets that fit in 1 MiB (R420). -/
def keepFitting : Nat → List (List Byte) → List (List Byte)
  | _, [] => []
  | room, x :: l => if setBytes x ≤ room then x :: keepFitting (room - setBytes x) l else []

/-- A set is resident in the memory of a filter (0 to 31) or stitcher (32 to 39). -/
def resident (s : State) (unit : Nat) (image : List Byte) : Bool := (Tab.getD s.filters unit []).contains image

/-- A set becomes the most recently used one of a unit. -/
def useSet (unit : Nat) (image : List Byte) (s : State) : State :=
  { s with filters := Tab.set s.filters unit (image :: (Tab.getD s.filters unit []).filter fun x => decide (x ≠ image)) }

/-- The set that loads under a number: one that scans still use after it was replaced, else the present one (R415,
R420). -/
def setToLoad (s : State) (unit n : Nat) : Option (List Byte) :=
  let old := (s.oldSets.filter fun e => decide (e.1 = n)).map (·.2.image)
  let new := ((Tab.get? s.sets n).map (·.image)).toList
  (old ++ new).find? fun x => !resident s unit x

/-- A pattern set finishes loading into filter memory; the least recently used ones leave (R420). -/
def execFilterSetLoad (unit set : Nat) (s : State) : Out :=
  .next (match setToLoad s unit set with
    | none => s
    | some x =>
      if unit < 40 then
        let s := useSet unit x s
        { s with filters := Tab.set s.filters unit (keepFitting 1048576 (Tab.getD s.filters unit [])) }
      else s)

end Sys2Proof.Machine
end

