-- ==== Sys2Proof/Machine/Invoke.lean ====
section
/-! DEFINITION. Invoke (R360 to R371), the service calls (R372, R373), and release (R333, R334, R369, R370). -/

namespace Sys2Proof.Machine

/-! ### The parameter block (R361, R362) -/

/-- The fields of a parameter block. -/
structure InvokeBlock where
  slot : Nat
  flow : Nat
  flags : Nat
  budget : Nat
  mask : Nat
  resMax : Nat
  inLen : Nat
  inNsid : Nat
  inNbuf : Nat
  inSlba : Nat
  inNlb : Nat
  outNsid : Nat
  outSlba : Nat
  outNlb : Nat
  args : List Word
  bufs : List Nat

/-- FLOWED. -/
def InvokeBlock.flowed (b : InvokeBlock) : Bool := bit b.flags 0
/-- IN_KIND. -/
def InvokeBlock.inKind (b : InvokeBlock) : Nat := bits b.flags 3 1
/-- OUT_KIND. -/
def InvokeBlock.outKind (b : InvokeBlock) : Nat := bits b.flags 5 4
/-- CONSUME. -/
def InvokeBlock.consume (b : InvokeBlock) : Bool := bit b.flags 6

/-- Words at offset `o`. -/
def wordsAt (b : List Byte) (o n : Nat) : List Word := (List.range n).map fun i => BitVec.ofNat 32 (field b (o + 4 * i) 4)

/-- The 128-byte block (R361). -/
def readBlock128 (b : List Byte) : InvokeBlock :=
  { slot := field b 0 2, flow := field b 2 2, flags := field b 4 4, budget := field b 8 4, mask := field b 12 4,
    resMax := field b 16 4, inLen := field b 20 4, inNsid := field b 24 4, inNbuf := field b 28 4, inSlba := field b 32 8,
    inNlb := field b 40 4, outNsid := field b 44 4, outSlba := field b 48 8, outNlb := field b 56 4,
    args := wordsAt b 64 8, bufs := (List.range (min 8 (field b 28 4))).map fun i => field b (96 + 4 * i) 4 }

/-- The 64-byte block of the forerunner (R362). -/
def readBlock64 (b : List Byte) : InvokeBlock :=
  { slot := field b 0 2, flow := field b 2 2, flags := field b 4 4, budget := field b 8 4, mask := 0, resMax := 65536,
    inLen := field b 12 4, inNsid := field b 16 4, inNbuf := 0, inSlba := field b 24 8, inNlb := field b 32 4,
    outNsid := field b 20 4, outSlba := field b 36 8, outNlb := field b 44 4,
    args := wordsAt b 48 4 ++ List.replicate 4 0, bufs := [] }

/-- Fields that both blocks share hold valid values (R361). -/
def commonOk (p : InvokeBlock) : Bool :=
  decide (p.slot < 1024 ∨ p.slot = 0xFFFF) && decide (p.flags < 128 ∧ p.outKind ≠ 3 ∧ p.inKind < 4)
    && (if p.flowed then decide (p.flow < 1024) else decide (p.flow = 0))
    && (!p.consume || decide (p.inKind = 3))
    && decide (p.inKind = 2 ∨ p.inNsid = 0) && decide (p.outKind = 2 ∨ p.outNsid = 0)
    && decide (p.inKind ≠ 0 ∨ p.inLen = 0)

/-- Every field of the block is valid (R361, R362). -/
def blockOk (fore : Bool) (b : List Byte) (p : InvokeBlock) : Bool :=
  commonOk p &&
    (if fore then decide (p.inKind ≠ 3 ∧ p.consume = false)
     else decide (p.resMax % 16 = 0 ∧ p.resMax ≤ 1048576) && zeroAt b 60 4
       && (if p.inKind = 3 then decide (1 ≤ p.inNbuf ∧ p.inNbuf ≤ 8) else decide (p.inNbuf = 0))
       && zeroAt b (96 + 4 * p.inNbuf) (32 - 4 * p.inNbuf))

/-! ### The checks of Invoke (R363, R364) -/

/-- The namespace that a command of slice `sl` may name. -/
def nsOfSlice (s : State) (h : Sub) (sl nsid : Nat) : Option Namespace :=
  (nsForIo s h nsid).bind fun n => if n.slice = sl then some n else none

/-- Bytes of the buffers named (R363). -/
def bufsBytes (s : State) (sl : Nat) (l : List Nat) : Nat :=
  (l.map fun a => ((bufferAt s sl a).map fun x => 2 ^ x.2.1.log2sz).getD 0).sum

/-- Bytes of the blocks of a range of namespace `nsid`. -/
def rangeBytes (s : State) (nsid nlb : Nat) : Nat := ((nsOf s nsid).map fun n => (nlb + 1) * blockBytes n).getD 0

/-- Actual input length (R363). -/
def inputBytes (s : State) (sl : Nat) (p : InvokeBlock) (host : Nat) : Nat :=
  match p.inKind with
  | 1 => host
  | 2 => rangeBytes s p.inNsid p.inNlb
  | 3 => bufsBytes s sl p.bufs
  | _ => 0

/-- The host account of a slice (R367). -/
def accountOf (s : State) (sl : Nat) : List Nat := Tab.getD s.accounts sl []

/-- The test of R363; LBA input of a namespace that is not there is judged by the next one. -/
def lengthRefusal (s : State) (sl : Nat) (p : InvokeBlock) (host : Nat) : Option Status :=
  if p.inKind = 2 ∧ (nsOf s p.inNsid).isNone then none
  else if inputBytes s sl p host < p.inLen then some (sVendor 0x89)
  else if p.inKind = 1 ∧ (p.inLen < host ∨ 16777216 < host) then some sField
  else none

/-- The test of a namespace and its range (R364, test 5). -/
def rangeRefusal (s : State) (h : Sub) (sl nsid slba nlb : Nat) : Option Status :=
  match nsOfSlice s h sl nsid with
  | none => some sNamespace
  | some n => if n.nsze < slba + nlb + 1 then some sLba else none

/-- MiB that the invocation stages for LBA output (R370). -/
def stagedMibOf (s : State) (p : InvokeBlock) : Nat := if p.outKind = 2 then mibOf (rangeBytes s p.outNsid p.outNlb) else 0

/-- MiB of host input. -/
def inputMibOf (p : InvokeBlock) : Nat := if p.inKind = 1 then mibOf p.inLen else 0

/-- SLOT may be invoked (R364, test 2). -/
def slotOk (s : State) (sl : Nat) (p : InvokeBlock) : Bool :=
  if p.slot = 0xFFFF then decide (p.inKind = 3) && p.consume
  else match Tab.get? s.progs p.slot with
    | some g => decide (g.slice = sl) && !g.closing
    | none => false

/-- The output range overlaps a sealed extent (R364, test 7). -/
def outputSealed (s : State) (p : InvokeBlock) : Bool :=
  decide (p.outKind = 2) && ((nsOf s p.outNsid).map fun n => sealed n p.outSlba (p.outNlb + 1)).getD false

/-- The first failing test of R364 after the first. -/
def invokeRefusal (s : State) (h : Sub) (sl : Nat) (p : InvokeBlock) (host : Nat) : Option Status :=
  let inR := if p.inKind = 2 then rangeRefusal s h sl p.inNsid p.inSlba p.inNlb else none
  let outR := if p.outKind = 2 then rangeRefusal s h sl p.outNsid p.outSlba p.outNlb else none
  let bufs := p.bufs.all fun a => (accountOf s sl).contains a && (bufferAt s sl a).isSome
  if !slotOk s sl p then some (sVendor 0x8D)
  else if !flowFree s (if p.flowed then some p.flow else none) sl then some (sVendor 0x87)
  else (lengthRefusal s sl p host).or (inR.or (outR.or (
    if p.inKind = 3 && !bufs then some sField
    else if outputSealed s p then some (sVendor 0x80)
    else if p.outKind = 2 && s.media.readOnly then some { sct := 0, sc := 0x20 }
    else if !dramRoom s sl (inputMibOf p + mibOf p.resMax + stagedMibOf s p) then some (sVendor 0x87)
    else if 65536 ≤ s.results.length then some (sVendor 0x87)
    else none)))

/-! ### Invoke (R360, R364 to R367) -/

/-- The reference of one named buffer leaves the host account as a staged free (R349, R367). -/
def consumeBuf (sl : Nat) (s : State) (a : Nat) : State :=
  if (accountOf s sl).contains a then
    (freeBuffer sl a { s with accounts := Tab.set s.accounts sl ((accountOf s sl).erase a) }).2
  else s

/-- The input address that w1 holds (R365). -/
def inputAddr (p : InvokeBlock) : Word :=
  match p.inKind with
  | 1 => 0x02000000#32
  | 3 => 0x00001060#32
  | _ => 0

/-- The invocation that a block describes. -/
def invocationOf (s : State) (h : Sub) (sl hd : Nat) (p : InvokeBlock) (block host : List Byte) : Invocation :=
  { h := h, slice := sl, slot := p.slot, block := fit 128 block, flow := if p.flowed then some p.flow else none,
    inKind := p.inKind, outKind := p.outKind, consume := p.consume, inLen := p.inLen, resMax := p.resMax,
    inNsid := p.inNsid, inSlba := p.inSlba, inNlb := p.inNlb, outNsid := p.outNsid, outSlba := p.outSlba,
    outNlb := p.outNlb, bufs := p.bufs, handle := hd, area := memOf (fit 128 block),
    input := if p.inKind = 1 then memOf (host.take p.inLen) else [], stagedMib := stagedMibOf s p,
    inputMib := inputMibOf p, resMib := mibOf p.resMax }

/-- The start of an invocation, once its checks have passed (R322, R365). -/
def waitingOf (s : State) (v : Invocation) (p : InvokeBlock) : WaitingInvoke :=
  let home := if p.inKind = 2 then
      (nsOf s p.inNsid).map fun n => unitHome p.inNsid (p.inSlba / unitBlocks n) else none
  { inv := v, home := home, flowNo := v.flow, budget := p.budget, mask := BitVec.ofNat 32 p.mask,
    args := [inputAddr p, BitVec.ofNat 32 p.inLen] ++ p.args ++ [BitVec.ofNat 32 p.resMax] }

/-- Invoke of a slice (R364). -/
def invokeFor (h : Sub) (sl : Nat) (d : Cdw) (data : List Byte) (s : State) : State :=
  let fore := forerunner s sl
  let size := if fore then 64 else 128
  let ndt := d.d10.toNat
  let b := fit ndt data
  let p := if fore then readBlock64 b else readBlock128 b
  if d.d11 ≠ 0 ∨ d.d12 ≠ 0 ∨ d.d13 ≠ 0 ∨ d.d14 ≠ 0 ∨ d.d15 ≠ 0 ∨ ndt < size ∨ blockOk fore b p = false then
    refuse h sField s
  else match invokeRefusal s h sl p (ndt - size) with
    | some st => refuse h st s
    | none =>
      let hd := newHandle s
      let v := invocationOf s h sl hd p (b.take size) (b.drop size)
      let s := charge sl (v.inputMib + v.resMib + v.stagedMib) (reserveRecord hd sl v.resMib s)
      if p.slot = 0xFFFF then
        let s := p.bufs.foldl (consumeBuf sl) s
        complete h sOk hd 0 [] (fillRecord hd (recordBytes 1 0 [] [] [] s.datum 0 false) (credit sl (v.inputMib + v.stagedMib) s))
      else pumpInvokes { s with waitingInvokes := s.waitingInvokes ++ [.invoke (waitingOf s v p)] }

/-- Invoke judges its parameter block and waits for a task to run the program (R364). -/
def execInvoke (h : Sub) (d : Cdw) (data : List Byte) (s : State) : Out := .next (invokeFor h (actSlice s h) d data s)

/-! ### Service calls (R372, R373) -/

/-- The core is in the handler of service `code` for a program task. -/
def inService (s : State) (c : CoreId) (code : Nat) : Option View :=
  (running s c).bind fun v =>
    if v.core.trapped = true ∧ v.core.tcause.toNat % 65536 = code * 256 + 0x0D then some v else none

/-- The handler returns: w1 holds the status, the task resumes after the `trap`, and the call counts as one step
(R372, R315, R303). -/
def serviceReturn (v : View) (st : Nat) (s : State) : State :=
  let u := coreOf s v.c
  let s := setCore s v.c { u with trapped := false, fw := u.tstat.getLsbD 31, slot := u.tstat.toNat % 65536 }
  modTask v.t (fun k => countStep { k with regs := k.regs.set 1 (BitVec.ofNat 32 st), pc := u.tpc + 4 }) s

/-- A service whose range does not translate ends the task as trap 0x06 would (R372). -/
def serviceFault (v : View) (a : Word) (s : State) : State :=
  endTask v.t 0x83 (recordTrapEnd { v with core := { v.core with trapped := false } } 0x06 a s)

/-- A service that reads a range of D-space (R372, R269). -/
def serviceRead (v : View) (a : Word) (n : Nat) (f : List Byte → State → State) (s : State) : State :=
  if !rangeOk s v.t v.task a.toNat n false then serviceFault v a s
  else if rangeLost s v.t v.task a.toNat n then endTask v.t 0x83 s
  else serviceReturn v 0 (f (peekBytes s v.t v.task a.toNat n) s)

/-- The invocation of a task. -/
def invOf (s : State) (k : Task) : Option Invocation := k.inv.bind (Tab.get? s.invs)

/-- Result bytes that a task has staged. -/
def stagedResult (k : Task) : Nat :=
  (k.effects.map fun e => match e with
    | .result d => d.length
    | _ => 0).sum

/-- Result bytes of an invocation: applied, and staged by its tasks (R373). -/
def resultTotal (s : State) (i : Nat) (v : Invocation) : Nat :=
  v.results.length + (s.tasks.map fun k => if k.2.inv = some i then stagedResult k.2 else 0).sum

/-- RESULT appends bytes to the result data, staged until release (R373). -/
def execSvcResult (c : CoreId) (s : State) : Out :=
  .next (match inService s c 1 with
    | none => s
    | some v =>
      let n := (v.task.regs[2]).toNat
      match v.task.inv, invOf s v.task with
      | some i, some x =>
        if x.resMax < resultTotal s i x + n then serviceReturn v 0x07 s
        else serviceRead v v.task.regs[1] n
          (fun bs s => modTask v.t (fun k => { k with effects := k.effects ++ [.result bs] }) s) s
      | _, _ => serviceReturn v 0x07 s)

/-- Hand-outs that the tasks of a slice have staged. -/
def stagedHandOuts (s : State) (sl : Nat) : Nat :=
  (s.tasks.map fun k => if k.2.slice = sl then (k.2.effects.filter fun e => match e with
    | .handOut _ => true
    | _ => false).length else 0).sum

/-- OUTBUF stages the handing of one reference to the host account (R373). -/
def execSvcOutbuf (c : CoreId) (s : State) : Out :=
  .next (match inService s c 2 with
    | none => s
    | some v =>
      let a := (v.task.regs[1]).toNat
      let st :=
        if !(v.task.holding.any fun e => decide (e.1 = a ∧ 1 ≤ e.2)) then 0x02
        else if (invOf s v.task).map (·.outKind) ≠ some 1 then 0x07
        else if 4096 ≤ (accountOf s v.task.slice).length + stagedHandOuts s v.task.slice then 0x87
        else 0
      serviceReturn v st (if st = 0 then modTask v.t (fun k => { k with effects := k.effects ++ [.handOut a] }) s else s))

/-- LBAOUT copies blocks into the output staging (R370, R373). -/
def execSvcLbaout (c : CoreId) (s : State) : Out :=
  .next (match inService s c 3 with
    | none => s
    | some v =>
      let first := (v.task.regs[2]).toNat
      let n := (v.task.regs[3]).toNat
      match (invOf s v.task).bind fun x => if x.outKind = 2 then (nsOf s x.outNsid).map fun ns => (x, blockBytes ns) else none with
      | none => serviceReturn v 0x07 s
      | some (x, size) =>
        if n = 0 ∨ x.outNlb + 1 < first + n ∨ 4194304 < n * size then serviceReturn v 0x07 s
        else serviceRead v v.task.regs[1] (n * size)
          (fun bs s => modTask v.t (fun k => { k with effects := k.effects ++ [.lbaOut first n bs] }) s) s)

/-! ### Release (R333, R334, R369, R370) -/

/-- Enters one LBA output of a release as a write of stages 2 to 9 (R106, R370). -/
def enterOutput (t : Nat) (x : Invocation) (e : HeldEffect) (s : State) : State :=
  match e, nsOf s x.outNsid with
  | .lbaOut first n bs, some ns =>
    let gs := granulesOf ns false (x.outSlba + first) n bs
    enterWrite { newWrite x.h x.slice x.outNsid .invokeOutput 0 false gs with task := some t } s
  | .lbaOut first _ _, none => failRelease t sNamespace x.outNsid (x.outSlba + first) s
  | _, _ => s

/-- An effect is LBA output. -/
def isLbaOut (e : HeldEffect) : Bool :=
  match e with
  | .lbaOut _ _ _ => true
  | _ => false

/-- A seal covers a block of the output range that the invocation named (R174). -/
def namedRangeSealed (s : State) (x : Invocation) : Bool :=
  decide (x.outKind = 2) && (nsOf s x.outNsid).any fun n => sealed n x.outSlba (x.outNlb + 1)

/-- Outputs of a release, in the order of their calls, while none has failed (R369, R370). -/
def enterOutputs (t : Nat) (x : Invocation) : List HeldEffect → State → State
  | [], s => s
  | e :: es, s =>
    let s := enterOutput t x e s
    if ((Tab.get? s.invs (x.handle % 65536)).map fun v => v.failStatus.isSome).getD true && x.failStatus.isNone then s
    else enterOutputs t x es s

/-- An ended task whose turn has come begins applying its held effects: LBA output first (R333, R334). -/
def execTaskRelease (task : Nat) (s : State) : Out :=
  .next (match taskOf s task with
    | none => s
    | some k =>
      if k.phase = .ended ∧ k.endStatus < 0x40 ∧ turnHere s k = true then
        let outs := k.effects.filter isLbaOut
        let s := setTask s task { k with phase := .releasing, effects := k.effects.filter fun e => !isLbaOut e }
        match invOf s k with
        | some x => if namedRangeSealed s x then failRelease task (sVendor 0x80) x.outNsid x.outSlba s else enterOutputs task x outs s
        | none => s
      else s)

/-- Order in which kinds of effects are applied (R334). -/
def effectRank (e : HeldEffect) : Nat :=
  match e with
  | .lbaOut _ _ _ => 0
  | .handOut _ => 1
  | .result _ => 2
  | .keyInsert _ _ _ _ _ | .keyDelete _ _ _ _ => 3
  | .poolFree _ | .poolShare _ => 4

/-- Effects in the order of R334, calls of one kind in their order. -/
def inOrder (l : List HeldEffect) : List HeldEffect :=
  (List.range 5).flatMap fun r => l.filter fun e => decide (effectRank e = r)

/-- What applying one effect answers. -/
inductive Applied where
  | done (s : State)
  | waits (s : State)
  | fails (st : Status) (s : State)

/-- Applies a staged key operation; it waits while its table moves entries (R398, R404, R409). -/
def applyKey (n : Nat) (ins : Bool) (e : KeyEntry) (s : State) : Applied :=
  match Tab.get? s.tables n with
  | none => .done s
  | some t =>
    if t.move.isSome then .waits s
    else if ins then
      match insertEntry s t e with
      | .placed t => .done { s with tables := Tab.set s.tables n t }
      | .moving t => .waits { s with tables := Tab.set s.tables n t }
      | .blocked => .waits s
      | .full => .fails (sVendor 0x8B) s
    else .done { s with tables := Tab.set s.tables n (deleteEntry t e).2 }

/-- Applies one held effect (R334, R349, R367, R409). -/
def applyEffect (k : Task) (e : HeldEffect) (s : State) : Applied :=
  let onInv := fun (f : Invocation → Invocation) (s : State) => match k.inv with
    | some i => { s with invs := Tab.modify s.invs i f }
    | none => s
  match e with
  | .lbaOut _ _ _ => .done s
  | .handOut a => .done (onInv (fun v => { v with handOuts := v.handOuts ++ [a] })
      { s with accounts := Tab.set s.accounts k.slice (accountOf s k.slice ++ [a]) })
  | .result bs => .done (onInv (fun v => { v with results := v.results ++ bs }) s)
  | .keyInsert n v m p d => applyKey n true { value := v, mask := m, prio := p, dat := d } s
  | .keyDelete n v m p => applyKey n false { value := v, mask := m, prio := p, dat := 0 } s
  | .poolFree a => .done (freeBuffer k.slice a s).2
  | .poolShare a => .done (shareBuffer k.slice a s).2

/-- Applies held effects until one waits; the rest stays held. -/
def applyEffects (t : Nat) (k : Task) : List HeldEffect → State → State
  | [], s => modTask t (fun k => { k with effects := [] }) s
  | e :: es, s =>
    match applyEffect k e s with
    | .done s => applyEffects t k es s
    | .waits s => modTask t (fun k => { k with effects := e :: es }) s
    | .fails st s => failRelease t st 0 0 s

/-- CONSUME at the release of the root (R367), unless an effect of the release has failed. -/
def consumeAtRelease (k : Task) (s : State) : State :=
  match invOf s k with
  | some x => if k.root && x.consume && x.failStatus.isNone then x.bufs.foldl (consumeBuf k.slice) s else s
  | none => s

/-- A release completes once every effect has reached its commit point; TURN advances, and the invocation completes when
its family is done (R333 to R335). -/
def releaseDone (task : Nat) (s : State) : State :=
  match taskOf s task with
  | none => s
  | some k =>
    if k.phase ≠ .releasing ∨ (s.writes.any fun w => decide (w.task = some task)) = true then s
    else
      let s := applyEffects task k (inOrder k.effects) s
      if ((taskOf s task).map fun k => !k.effects.isEmpty).getD true then s
      else
        let s := consumeAtRelease k s
        passTurns s.tasks.length (freeTask task s)

end Sys2Proof.Machine
end

