-- ==== Sys2Proof/Machine/Engines.lean ====
section
/-! DEFINITION. The engine ports of programs: block DMA (R376), compression (R377, R378), channel filters (R379); Scan
(R380 to R384) and Result Read (R385 to R387). -/

namespace Sys2Proof.Machine

/-! ### Tickets (R374). Keys: DMA 0 to 3, compression 4 and 5, filter 6 -/

/-- Ticket of a task. -/
def ticketOf (k : Task) (i : Nat) : Ticket := Tab.getD k.tickets i {}

/-- The lowest free ticket of `n` from `base` on. -/
def freeTicket (k : Task) (base n : Nat) : Option Nat :=
  (List.range n).find? fun i => decide ((ticketOf k (base + i)).state = .idle)

/-- Writes a ticket. -/
def setTicket (t i : Nat) (x : Ticket) (s : State) : State := modTask t (fun k => { k with tickets := Tab.set k.tickets i x }) s

/-- A STAT port (R374): reading done or failed sets the ticket idle. -/
def statRead (v : View) (i : Nat) (s : State) : Word × State :=
  let x := ticketOf v.task i
  let busy := decide (x.state = .busy ∧ x.discard = false)
  let code := if busy then 1 else match x.state with
    | .done => 2
    | .failed => 3
    | _ => 0
  (BitVec.ofNat 32 (code * 2 ^ 30 + (if 2 ≤ code then x.status % 256 else 0)),
    if 2 ≤ code then setTicket v.t i { x with state := .idle, status := 0 } s else s)

/-- Answers a GO read: a refusal, or a started operation (R374). A range that does not translate counts in TRANSFAULTS
(R464). -/
def goAnswer (v : View) (base n : Nat) (refusal : Option Nat) (x : Ticket) (s : State) : Word × State :=
  match refusal with
  | some st =>
    (refusedWord st, if st = 0x19 then
        modSlice v.task.slice (fun x => { x with transFaults := satAdd 32 x.transFaults 1 }) s else s)
  | none =>
    match freeTicket v.task base n with
    | none => (refusedWord 0x10, s)
    | some i => (BitVec.ofNat 32 i, setTicket v.t (base + i) { x with state := .busy, block := v.c / 8 } s)

/-- An operation finishes: its ticket is done or failed and the flag is set; the result of a discarded one goes (R374). -/
def finishTicket (t i st out : Nat) (s : State) : State :=
  match taskOf s t with
  | none => s
  | some k =>
    let x := ticketOf k i
    let s := setTicket t i { x with state := if st = 0 then .done else .failed, status := st, out := out, image := [] } s
    setFlag t x.flag s

/-- A busy operation of a task, which is to be discarded or not. -/
def busyTicket (s : State) (t i : Nat) : Option (Task × Ticket) :=
  (taskOf s t).bind fun k =>
    let x := ticketOf k i
    if x.state = .busy then some (k, x) else none

/-- Frees the ticket of a discarded operation. -/
def discardTicket (t i : Nat) (s : State) : State := setTicket t i {} s

/-- Free bytes, one for each draw (R376). -/
def freeBytes (s : State) (n : Nat) : List Byte := (List.range n).map (freeByte s)

/-- Writes an engine's output to D-space; a lost burst met by a partial write ends the task (R269). -/
def engineWrite (t : Nat) (k : Task) (a : Nat) (bs : List Byte) (done : State → State) (s : State) : State :=
  let r := pokeBytes t k a bs s
  if r.2 then endTask t 0x83 r.1 else done r.1

/-! ### LBA input -/

/-- The LBA input of a task: its invocation and namespace (R375, status 0x15). -/
def lbaInput (s : State) (k : Task) : Option (Invocation × Namespace) :=
  (invOf s k).bind fun x => if x.inKind = 2 then (nsOf s x.inNsid).map fun n => (x, n) else none

/-! ### Block DMA (R376) -/

/-- A source offset of an LBA source. -/
def dmaOffset (p : PortRegs) : Nat := p.dmaSrcHi.toNat % 4096 * 2 ^ 32 + p.dmaSrc.toNat

/-- Reading DMA_GO (R376). -/
def dmaGo (v : View) (s : State) : Word × State :=
  let p := v.task.ports
  let len := p.dmaLen.toNat
  let kind := bits p.dmaCtl.toNat 31 30
  let x : Ticket := { flag := bits p.dmaCtl.toNat 4 0, src := if kind = 1 then dmaOffset p else p.dmaSrc.toNat,
                      dst := p.dmaDst.toNat, len := len, lba := decide (kind = 1) }
  let refusal :=
    if 2 ≤ kind ∨ len = 0 ∨ 16777216 < len then some 0x07
    else if kind = 1 ∧ (match lbaInput s v.task with
        | some (i, _) => decide (i.inLen < x.src + len)
        | none => true) = true then some 0x15
    else if (kind = 0 ∧ rangeOk s v.t v.task x.src len false = false) ∨ rangeOk s v.t v.task x.dst len true = false then some 0x19
    else none
  goAnswer v 0 4 refusal x s

/-- Bytes of the input range that an LBA transfer delivers, and how many of them precede the first unit that cannot be
recovered (none when all can). -/
def lbaBytes (s : State) (v : Invocation) (n : Namespace) (off len : Nat) : List Byte × Option Nat :=
  let size := blockBytes n
  let b0 := off / size
  let cnt := (off + len - 1) / size - b0 + 1
  let data := ((blocksData n (v.inSlba + b0) cnt).drop (off % size)).take len
  match firstBad s v.inNsid n (v.inSlba + b0) cnt with
  | none => (data, none)
  | some b => (data, some (max (b / unitBlocks n * unitBlocks n) (v.inSlba + b0) * size - (v.inSlba + b0) * size - off % size))

/-- Finishes a DMA transfer from LBA input (R376, R214). -/
def dmaFromLba (task ticket : Nat) (k : Task) (x : Ticket) (s : State) : State :=
  match lbaInput s k with
  | none => engineWrite task k x.dst (freeBytes s x.len) (finishTicket task ticket 0x16 0) (drew x.len s)
  | some (v, n) =>
    let b0 := x.src / blockBytes n
    let cnt := (x.src + x.len - 1) / blockBytes n - b0 + 1
    if rangeWaits s n (v.inSlba + b0) cnt then s
    else
      let s := countRead (cnt * blockSectors n) s
      match lbaBytes s v n x.src x.len with
      | (data, none) => engineWrite task k x.dst data (finishTicket task ticket 0 0) s
      | (data, some good) =>
        let bs := data.take good ++ freeBytes s (x.len - good)
        engineWrite task k x.dst bs (finishTicket task ticket 0x16 0) (drew (x.len - good) s)

/-- Lanes of a block engine, DMA (0) or compression (1): the engine of the next block of its region is the other instance
(R502; DESIGN CHOICE, assumption 156). -/
def engineLanes (x : Ticket) (which : Nat) (c : LaneCheck) (s : State) : State :=
  laneCheck { kind := 5, index := 2 * x.block + which } (2 * (x.block / 4 * 4 + (x.block + 1) % 4) + which) c s

/-- A DMA transfer finishes and sets the task's flag (R374, R376, R269, R502). -/
def execDmaComplete (task ticket : Nat) (lanes : LaneCheck) (s : State) : Out :=
  .next (match (if ticket < 4 then busyTicket s task ticket else none) with
    | none => s
    | some (k, x) =>
      let s := engineLanes x 0 lanes s
      if x.discard then discardTicket task ticket s
      else if x.lba then dmaFromLba task ticket k x s
      else if rangeLost s task k x.src x.len then endTask task 0x83 s
      else engineWrite task k x.dst (peekBytes s task k x.src x.len) (finishTicket task ticket 0 0) s)

/-- Reads of ports 0x0200 to 0x02FF, by offset (R376). -/
def dmaPortRead (v : View) (p : Nat) (s : State) : Word × State :=
  let q := v.task.ports
  match p with
  | 0x00 => (q.dmaSrc, s)
  | 0x01 => (q.dmaSrcHi, s)
  | 0x02 => (q.dmaDst, s)
  | 0x03 => (q.dmaLen, s)
  | 0x04 => (q.dmaCtl, s)
  | 0x05 => dmaGo v s
  | p => if 0x08 ≤ p ∧ p < 0x0C then statRead v (p - 0x08) s else (0, s)

/-- A length field of 25 bits that states a number of bytes from 1 to 16 MiB (R376, R377). -/
def lenOk (x : Word) : Bool :=
  let n := bits x.toNat 24 0
  decide (1 ≤ n ∧ n ≤ 16777216)

/-- Writes of ports 0x0200 to 0x02FF, by offset (R376); an undefined value is not stored (R10). -/
def dmaPortWrite (v : View) (p : Nat) (x : Word) (s : State) : State :=
  match p with
  | 0x00 => modPorts v.t (fun q => { q with dmaSrc := x }) s
  | 0x01 => modPorts v.t (fun q => { q with dmaSrcHi := x &&& 0xFFF#32 }) s
  | 0x02 => modPorts v.t (fun q => { q with dmaDst := x }) s
  | 0x03 => if lenOk x then modPorts v.t (fun q => { q with dmaLen := x &&& 0x1FFFFFF#32 }) s else s
  | 0x04 => if bits x.toNat 31 30 < 2 then modPorts v.t (fun q => { q with dmaCtl := x &&& 0xC000001F#32 }) s else s
  | _ => s

/-! ### Compression (R377, R378) -/

/-- Reading CP_GO (R377). -/
def cpGo (v : View) (s : State) : Word × State :=
  let p := v.task.ports
  let op := bits p.cpCtl.toNat 31 28
  let level := bits p.cpCtl.toNat 27 24
  let x : Ticket := { flag := bits p.cpCtl.toNat 4 0, src := p.cpSrc.toNat, dst := p.cpDst.toNat, len := p.cpSrcLen.toNat,
                      room := p.cpDstLen.toNat, op := op, level := level }
  let sized := fun n : Nat => decide (1 ≤ n ∧ n ≤ 16777216)
  let refusal :=
    if 4 ≤ op ∨ (op % 2 = 0 ∧ (level < 1 ∨ 9 < level)) ∨ sized x.len = false ∨ sized x.room = false then some 0x07
    else if rangeOk s v.t v.task x.src x.len false = false ∨ rangeOk s v.t v.task x.dst x.room true = false then some 0x19
    else none
  goAnswer v 4 2 refusal x s

/-- Status of a decompression whose failure code the standard decides: malformed, unsupported, checksum (R378). -/
def decompressStatus (n : Nat) : Nat := if n = 0 then 0 else 0x12 + (n - 1) % 3

/-- Status and output of a compression operation (R378). -/
def cpResult (x : Ticket) (src : List Byte) : Nat × List Byte :=
  let r : Nat × List Byte :=
    if x.op % 2 = 0 then (0, Config.compressed x.op x.level src)
    else
      let r := Config.decompressed x.op src
      (decompressStatus r.1, r.2)
  if r.1 = 0 ∧ x.room < r.2.length then (0x11, []) else r

/-- A compression operation finishes and sets the task's flag (R374, R378). Of a failed one the spec states neither the
destination nor the bytes produced: free values (assumption 28). -/
def execCompressionComplete (task ticket : Nat) (lanes : LaneCheck) (s : State) : Out :=
  .next (match (if ticket < 2 then busyTicket s task (4 + ticket) else none) with
    | none => s
    | some (k, x) =>
      let s := engineLanes x 1 lanes s
      if x.discard then discardTicket task (4 + ticket) s
      else if rangeLost s task k x.src x.len then endTask task 0x83 s
      else
        let r := cpResult x (peekBytes s task k x.src x.len)
        if r.1 = 0 then engineWrite task k x.dst r.2 (finishTicket task (4 + ticket) 0 r.2.length) s
        else
          let n := freeNat s % (x.room + 1)
          engineWrite task k x.dst (freeBytes (drew 1 s) x.room) (finishTicket task (4 + ticket) r.1 n) (drew (x.room + 1) s))

/-- Reads of ports 0x0500 to 0x05FF, by offset (R377). -/
def cpPortRead (v : View) (p : Nat) (s : State) : Word × State :=
  let q := v.task.ports
  match p with
  | 0x00 => (q.cpSrc, s)
  | 0x01 => (q.cpSrcLen, s)
  | 0x02 => (q.cpDst, s)
  | 0x03 => (q.cpDstLen, s)
  | 0x04 => (q.cpCtl, s)
  | 0x05 => cpGo v s
  | 0x08 => statRead v 4 s
  | 0x09 => statRead v 5 s
  | 0x0A => (BitVec.ofNat 32 ((ticketOf v.task 4).out % 2 ^ 25), s)
  | 0x0B => (BitVec.ofNat 32 ((ticketOf v.task 5).out % 2 ^ 25), s)
  | _ => (0, s)

/-- A value of CP_CTL whose fields are all defined: OP 0 to 3, and with a compression a LEVEL of 1 to 9 (R377). -/
def cpCtlOk (x : Word) : Bool :=
  let op := bits x.toNat 31 28
  let level := bits x.toNat 27 24
  decide (op < 4) && (decide (op % 2 = 1) || decide (1 ≤ level ∧ level ≤ 9))

/-- Writes of ports 0x0500 to 0x05FF, by offset (R377); an undefined value is not stored (R10). -/
def cpPortWrite (v : View) (p : Nat) (x : Word) (s : State) : State :=
  match p with
  | 0x00 => modPorts v.t (fun q => { q with cpSrc := x }) s
  | 0x01 => if lenOk x then modPorts v.t (fun q => { q with cpSrcLen := x &&& 0x1FFFFFF#32 }) s else s
  | 0x02 => modPorts v.t (fun q => { q with cpDst := x }) s
  | 0x03 => if lenOk x then modPorts v.t (fun q => { q with cpDstLen := x &&& 0x1FFFFFF#32 }) s else s
  | 0x04 => if cpCtlOk x then modPorts v.t (fun q => { q with cpCtl := x &&& 0xFF00001F#32 }) s else s
  | _ => s

/-! ### Filters and stitchers (R381 to R384, R419) -/

/-- Position of a glint for ordering: end, then REPORT (R383). -/
def glintKey (g : Nat × Nat × Nat) : Nat := g.1 * 65536 + g.2.1

/-- Inserts a glint in order. -/
def insertGlint (g : Nat × Nat × Nat) : List (Nat × Nat × Nat) → List (Nat × Nat × Nat)
  | [] => [g]
  | x :: l => if glintKey g < glintKey x then g :: x :: l else x :: insertGlint g l

/-- Glints of one unit: the channel filter's, then the seam stitcher's that end at or after the seam and that the filter
did not report (R382, R419). `tail` is what precedes the seam; `pos` is the unit's position in the range. -/
def unitGlints (image tail : List Byte) (pos : Nat) (data : List Byte) : List (Nat × Nat × Nat) :=
  let own := psRun image (psStart image) pos data
  let seam := if tail.isEmpty then []
    else psRun image (psStart image) (pos - tail.length) (tail ++ data.take (psSpan image - 1))
  let new := (seam.filter fun m => decide (pos ≤ m.1) && !own.contains m).eraseDups
  let all := own.map (fun m => (m.1, m.2, 0)) ++ new.map fun m => (m.1, m.2, 1)
  all.foldl (fun l g => insertGlint g l) []

/-- The last SPAN - 1 bytes of a unit, for the next seam. -/
def seamTail (image tail data : List Byte) : List Byte :=
  let b := tail ++ data
  b.drop (b.length - (psSpan image - 1))

/-- Filters one unit of a range: its glints, whether it failed, and the tail for the next seam (R382, R384). -/
def filterUnit (s : State) (nsid : Nat) (n : Namespace) (image tail : List Byte) (slba nblk u : Nat) :
    List (Nat × Nat × Nat) × Bool × List Byte :=
  if unitBad s nsid n u slba nblk then ([], true, [])
  else
    let p := unitPart n u slba nblk
    let data := blocksData n p.1 p.2
    (unitGlints image tail ((p.1 - slba) * blockBytes n) data, false, seamTail image tail data)

/-- Filters units in order: glints, failed units. -/
def filterUnits (s : State) (nsid : Nat) (n : Namespace) (image : List Byte) (slba nblk : Nat) :
    List Byte → List Nat → List (Nat × Nat × Nat) × List Nat
  | _, [] => ([], [])
  | tail, u :: us =>
    let r := filterUnit s nsid n image tail slba nblk u
    let rest := filterUnits s nsid n image slba nblk r.2.2 us
    (r.1 ++ rest.1, if r.2.1 then u :: rest.2 else rest.2)

/-- A glint record (R383). -/
def glintBytes (n : Namespace) (slba : Nat) (g : Nat × Nat × Nat) : List Byte :=
  layout 16 [(0, toLe 8 (slba + g.1 / blockBytes n)), (8, toLe 2 (g.1 % blockBytes n)), (10, toLe 2 g.2.1), (12, toLe 1 g.2.2)]

/-- Reading FS_GO (R379). -/
def fsGo (v : View) (s : State) : Word × State :=
  let p := v.task.ports
  let off := p.fsOff.toNat
  let cnt := p.fsNblk.toNat
  let room := p.fsDstLen.toNat
  let set := setFor s v.task.slice (p.fsPset.toNat % 65536)
  let x : Ticket := { flag := bits p.fsCtl.toNat 4 0, src := off, dst := p.fsDst.toNat, len := cnt, room := room,
                      image := (set.map (·.image)).getD [] }
  let refusal :=
    if cnt = 0 ∨ room % 16 ≠ 0 then some 0x07
    else if (match lbaInput s v.task with
        | some (i, n) => decide (ceilDiv i.inLen (blockBytes n) < off + cnt)
        | none => true) = true then some 0x15
    else if set.isNone = true then some 0x18
    else if rangeOk s v.t v.task x.dst room true = false then some 0x19
    else none
  goAnswer v 6 1 refusal x s

/-- The filter of a unit's channel and, at a seam, the stitcher of its owning region hold the set (R382, R420). A unit
that is not on NAND has no channel. -/
def filterReady (s : State) (image : List Byte) (nsid : Nat) (n : Namespace) (seam : Bool) (u : Nat) : Bool :=
  let e := entryOf n u
  (decide (e.kind ≠ .onNand) || resident s (e.die / 32) image)
    && (!seam || (match ownerOf s nsid u with
      | some r => resident s (32 + r) image
      | none => false))

/-- Every unit of a range has its filter and its stitcher ready (R379, R420). -/
def filtersReady (s : State) (image : List Byte) (nsid : Nat) (n : Namespace) (units : List Nat) : Bool :=
  (indexed units).all fun e => filterReady s image nsid n (decide (0 < e.1 ∧ 1 < psSpan image)) e.2

/-- A program's filter scan finishes and sets the task's flag (R374, R379); `lanes` is what a channel filter or a seam
stitcher has found in its lanes (R502). -/
def execFilterScanComplete (task : Nat) (engine : Fin 32) (lanes : LaneCheck) (s : State) : Out :=
  .next (match busyTicket s task 6 with
    | none => s
    | some (k, x) =>
      if x.discard then sweepSets (discardTicket task 6 s)
      else match lbaInput s k with
        | none => sweepSets (finishTicket task 6 0x16 0 s)
        | some (v, n) =>
          let slba := v.inSlba + x.src
          let units := unitsTouched n slba x.len
          if rangeWaits s n slba x.len || !filtersReady s x.image v.inNsid n units then s
          else
            let s := channelLanes engine.val lanes s
            let r := filterUnits s v.inNsid n x.image slba x.len [] units
            let bad := match r.2 with
              | u :: _ => max slba (u * unitBlocks n) - v.inSlba
              | [] => 0
            let s := countRead (x.len * blockSectors n) s
            let s := modPorts task (fun q => { q with
              fsCount := min (2 ^ 32 - 1) r.1.length
              fsFail := r.2.length
              fsFirstBad := bad }) s
            engineWrite task k x.dst ((r.1.take (x.room / 16)).flatMap (glintBytes n slba))
              (fun s => sweepSets (finishTicket task 6 (if r.2.isEmpty then 0 else 0x88) 0 s)) s)

/-- Reads of ports 0x0600 to 0x06FF, by offset (R379). -/
def fsPortRead (v : View) (p : Nat) (s : State) : Word × State :=
  let q := v.task.ports
  match p with
  | 0x00 => (q.fsOff, s)
  | 0x01 => (q.fsNblk, s)
  | 0x02 => (q.fsPset, s)
  | 0x03 => (q.fsDst, s)
  | 0x04 => (q.fsDstLen, s)
  | 0x05 => (q.fsCtl, s)
  | 0x06 => fsGo v s
  | 0x07 => statRead v 6 s
  | 0x08 => (BitVec.ofNat 32 q.fsCount, s)
  | 0x09 => (BitVec.ofNat 32 q.fsFail, s)
  | 0x0A => (BitVec.ofNat 32 q.fsFirstBad, s)
  | _ => (0, s)

/-- Writes of ports 0x0600 to 0x06FF, by offset (R379); an undefined value is not stored (R10). -/
def fsPortWrite (v : View) (p : Nat) (x : Word) (s : State) : State :=
  match p with
  | 0x00 => modPorts v.t (fun q => { q with fsOff := x }) s
  | 0x01 => if x = 0 then s else modPorts v.t (fun q => { q with fsNblk := x }) s
  | 0x02 => modPorts v.t (fun q => { q with fsPset := x &&& 0xFFFF#32 }) s
  | 0x03 => modPorts v.t (fun q => { q with fsDst := x }) s
  | 0x04 => if x.toNat % 16 = 0 then modPorts v.t (fun q => { q with fsDstLen := x &&& 0xFFFFFF#32 }) s else s
  | 0x05 => modPorts v.t (fun q => { q with fsCtl := x &&& 0x1F#32 }) s
  | _ => s

/-! ### Scan (R380 to R384) -/

/-- The fields of a Scan are valid (R380). -/
def scanFieldsOk (s : State) (sl : Nat) (d : Cdw) (b : List Byte) : Bool :=
  let flags := field b 20 4
  decide (d = {}) && decide (1 ≤ field b 8 8 ∧ flags < 4 ∧ field b 24 4 % 16 = 0 ∧ field b 24 4 ≤ 16777216)
    && (if bit flags 0 then decide (field b 18 2 < 1024) else decide (field b 18 2 = 0))
    && zeroAt b 28 36 && (setFor s sl (field b 16 2)).isSome

/-- Scan applies a loaded pattern set to an LBA range (R380). -/
def execScan (h : Sub) (nsid : Nat) (d : Cdw) (data : List Byte) (s : State) : Out :=
  .next (
    let sl := actSlice s h
    let b := fit 64 data
    let slba := field b 0 8
    let nblk := field b 8 8
    let res := field b 24 4
    let flow := if bit (field b 20 4) 0 then some (field b 18 2) else none
    if !scanFieldsOk s sl d b then refuse h sField s
    else if !flowFree s flow sl then refuse h (sVendor 0x87) s
    else match nsOfSlice s h sl nsid with
      | none => refuse h sNamespace s
      | some n =>
        if n.nsze < slba + nblk then refuse h sLba s
        else if !recordRoom s sl (mibOf res) then refuse h (sVendor 0x87) s
        else
          let hd := newHandle s
          let q : ScanOp := { h := h, slice := sl, nsid := nsid, slba := slba, nblk := nblk, set := field b 16 2,
                              image := ((setFor s sl (field b 16 2)).map (·.image)).getD [], countOnly := bit (field b 20 4) 1,
                              resMax := res, flow := none, handle := hd, left := unitsTouched n slba nblk, failed := [],
                              glints := [] }
          let s := charge sl (mibOf res) (reserveRecord hd sl (mibOf res) s)
          pumpInvokes { s with waitingInvokes := s.waitingInvokes ++ [.scan q flow] })

/-- The bitmap of failed units (R386). -/
def failedBitmap (units failed : List Nat) : List Byte :=
  if failed.isEmpty then []
  else (List.range (ceilDiv units.length 8)).map fun i =>
    BitVec.ofNat 8 ((List.range 8).map fun j => flagBit ((units[8 * i + j]?).any failed.contains) j).sum

/-- A Scan's turn in its flow has come (R333, R383). -/
def scanTurn (s : State) (q : ScanOp) : Bool :=
  match q.flow with
  | none => true
  | some (f, n) => decide ((flowOf s f q.slice).turn.toNat = n)

/-- A Scan leaves the device: its turn passes, its set may be freed, and what waits for a task may start (R332, R415). -/
def dropScan (q : ScanOp) (s : State) : State :=
  let s := { s with scans := s.scans.filter fun x => decide (x.handle ≠ q.handle) }
  let s := match q.flow with
    | some (f, _) => unbindIfEmpty f { s with flows := Tab.modify s.flows f fun w => { w with turn := w.turn + 1 } }
    | none => s
  pumpInvokes (sweepSets (passTurns s.tasks.length s))

/-- The result record of a Scan (R386). -/
def scanRecord (s : State) (q : ScanOp) (n : Namespace) : List Byte :=
  let kept := if q.countOnly then [] else q.glints.take (q.resMax / 16)
  recordBytes 2 0 [] (kept.flatMap (glintBytes n q.slba)) (failedBitmap (unitsTouched n q.slba q.nblk) q.failed) s.datum
    q.glints.length (q.countOnly || decide (q.resMax / 16 < q.glints.length))

/-- Completes a Scan whose units have all been filtered, in its flow's sequence (R383 to R385). -/
def finishScan (q : ScanOp) (n : Namespace) (s : State) : State :=
  if !(q.left.isEmpty && scanTurn s q) then s
  else
    let s := fillRecord q.handle (scanRecord s q n) s
    let st := if q.failed.isEmpty then sOk else sVendor 0x88
    complete q.h st q.handle (min (2 ^ 32 - 1) q.glints.length) [] (dropScan q s)

/-- Marks the use of the set in the filter memories (R420). -/
def markUse (s : State) (image : List Byte) (nsid : Nat) (n : Namespace) (seam : Bool) (u : Nat) : State :=
  let e := entryOf n u
  let s := if e.kind = .onNand then useSet (e.die / 32) image s else s
  if !seam then s
  else match ownerOf s nsid u with
    | some r => useSet (32 + r) image s
    | none => s

/-- A mapping unit of a Scan has been read, and its filter and stitcher report; after the last one the Scan completes
(R382 to R385). It waits while its set is not resident or its channel has no engine (R237, R420). -/
def execScanUnitFilter (h : Sub) (s : State) : Out :=
  .next (match s.scans.find? fun q => decide (q.h = h) with
    | none => s
    | some q =>
      match nsOf s q.nsid with
      | none => s
      | some n =>
        match q.left with
        | [] => finishScan q n s
        | u :: us =>
          let p := unitPart n u q.slba q.nblk
          if rangeWaits s n p.1 p.2 || !filterReady s q.image q.nsid n (!q.tail.isEmpty) u then s
          else
            let r := filterUnit s q.nsid n q.image q.tail q.slba q.nblk u
            let q' := { q with left := us, failed := if r.2.1 then q.failed ++ [u] else q.failed,
                               glints := q.glints ++ r.1, tail := r.2.2 }
            let s := countRead (p.2 * blockSectors n) (markUse s q.image q.nsid n (!q.tail.isEmpty) u)
            finishScan q' n { s with scans := s.scans.map fun x => if x.handle = q.handle then q' else x })

/-! ### Result Read (R387) -/

/-- Result Read returns part of a result record and frees it when asked (R387). -/
def execResultRead (h : Sub) (d : Cdw) (s : State) : Out :=
  .next (
    let i := d.d10.toNat % 65536
    let off := d.d11.toNat
    let len := d.d12.toNat
    if off % 4 ≠ 0 ∨ len % 4 ≠ 0 ∨ 2 ≤ d.d13.toNat then refuse h sField s
    else match Tab.get? s.results i with
      | none => refuse h sField s
      | some r =>
        if r.gen ≠ d.d10.toNat / 65536 ∨ r.slice ≠ actSlice s h ∨ r.ready = false then refuse h sField s
        else
          let s := complete h sOk r.bytes.length 0 (fit len (r.bytes.drop off)) s
          if d.d13 = 1 then freeRecord i s else s)

end Sys2Proof.Machine
end

