-- ==== Sys2Proof/Machine/Regions.lean ====
section
/-! DEFINITION. Regions (R11 to R35, R509 to R516): the datum and its copies, arbiters and the deadline ledger, pace,
eclipse and relight, what a fault of each site brings (R15, R505), the redundant chip units, and the supervisor and trace
ports. -/

namespace Sys2Proof.Machine

/-! ### Clock and datum (R25, R26) -/

/-- The crystal stops or is off frequency: the datum runs on from the supervisor's oscillator, a masked fault (R25). -/
def execClockSourceSwitch (s : State) : Out :=
  .next (if s.oscillator then s
    else recordMasked { level := 3, cls := 0x0C, site := chipUnit 8, aux0 := 0 } { s with oscillator := true })

/-- The crystal recovers: a record, no fault (R25, R522). -/
def execCrystalReturn (s : State) : Out :=
  .next (if s.oscillator then recordNote { level := 3, cls := 0x0C, site := chipUnit 8, aux0 := 1 } 0 { s with oscillator := false }
    else s)

/-- The unit of datum copy `i`: a region, or the datum for the front end's copy. -/
def copySite (i : Nat) : Site := if i < 8 then { kind := 2, index := i } else chipUnit 7

/-- Every 65,536 ticks the counter broadcasts its value, and each copy compares it with its own count; a copy that
differs is recorded and reloaded (R26). `upsets` names copies whose count a fault has changed since, with the count they
hold. -/
def execDatumBroadcast (upsets : List (Nat × Nat)) (s : State) : Out :=
  .next (
    if s.datum % 65536 ≠ 0 then s
    else
      let copies := upsets.foldl (fun m e => Tab.modify m e.1 fun _ => e.2) s.copies
      let s := (copies.filter fun c => decide (c.2 ≠ s.datum)).foldl (fun s c =>
        recordMasked { level := levelOf (copySite c.1), cls := 0x0B, site := copySite c.1, addr := s.datum } s) s
      { s with copies := s.copies.map fun c => (c.1, s.datum) })

/-! ### Arbiters (R12, R15, R19, R49 to R54, R60) -/

/-- Key of an arbiter: block b, 32 + region, 40 the chip's, 41 the front end's. -/
def arbKey : ArbId → Nat
  | .block b => b.val
  | .region r => 32 + r.val
  | .chip => 40
  | .frontEnd => 41

/-- An arbiter. -/
def arbOf (s : State) (a : ArbId) : Arbiter := Tab.getD s.arbiters (arbKey a) {}

/-- Changes an arbiter. -/
def setArb (a : ArbId) (x : Arbiter) (s : State) : State := { s with arbiters := Tab.set s.arbiters (arbKey a) x }

/-- What an arbiter serves (R12). -/
def arbServes : ArbId → Resource → Bool
  | .block _, .blockSram | .block _, .dmaChannel | .block _, .ioPort => true
  | .region _, .regionFabric | .region _, .dramPort | .region _, .chipFabric => true
  | .chip, .dramRing | .chip, .hostFrontEnd | .chip, .securityBlock => true
  | .frontEnd, .hostLink => true
  | _, _ => false

/-- Region of a unit, for the kinds that lie in one. -/
def siteRegion (t : Site) : Option Nat := (siteDomain t).map (·.1)

/-- A unit shares an arbiter's resources: the cores and engines of its block, the blocks and engines of its region, the
regions of the chip and its DRAM channels, and chip units at the front end (R12). -/
def arbMember : ArbId → Site → Bool
  | .block b, t => decide (t.kind = 0 ∧ t.index / 8 = b.val) || decide (t.kind = 5 ∧ t.index / 2 = b.val)
  | .region r, t => decide ((1 ≤ t.kind ∧ t.kind ≤ 6) ∧ siteRegion t = some r.val)
  | .chip, t => decide ((t.kind = 2 ∧ t.index < 8) ∨ t.kind = 9 ∨ t.kind = 11)
  | .frontEnd, t => decide (t.kind = 2 ∧ t.index < 8 ∨ t.kind = 11)

/-- The domain that an arbiter lies in has power; the chip's and the front end's lie in the host domain (R55, R56). -/
def arbPowered (s : State) : ArbId → Bool
  | .block b => domainOn s (b.val / 4) (32 + b.val % 4)
  | .region r => domainOn s r.val 46
  | _ => true

/-- A unit that may be granted: in service and powered, and not fenced (R15, R60). -/
def grantable (s : State) (t : Site) : Bool :=
  !unitRetired s t && sitePowered s t && !(decide (t.kind = 0) && (coreOf s t.index).fenced)

/-- Holdback that a kind of budgeted work draws on, MB/s (R43, R202, R229, R271). -/
def budgetRate (s : State) : Budget → Nat
  | .gc => s.base.hbGc
  | .traverse => hbTraverse s
  | .scrub => hbScrub s

/-- Place of a kind of budgeted work in the ledger. -/
def budgetKey : Budget → Nat
  | .gc => 0
  | .traverse => 1
  | .scrub => 2

/-- Deadline of a transfer of budgeted work: its bytes at the budgeted rate after the deadline before it (R52); no
deadline without a budget. -/
def budgetDeadline (s : State) (b : Budget) (arrival bytes : Nat) : Option Nat :=
  let rate := budgetRate s b
  if rate = 0 then none
  else some (max arrival (Tab.getD s.ledger (budgetKey b) 0) + ceilDiv (bytes * 100) rate)

/-- The deadline that a request carries (R49): a conforming reserved write its own (R142), the steps of a dump, a Hold-up
Test and an activation while those run, DRAM maintenance the due time and its slack (R260, R262), budgeted work as R52
spaces it; none for any other operation. -/
def deadlineOf (s : State) (q : ArbReq) : Option Nat :=
  match q.work with
  | .bestEffort => none
  | .reservedWrite h => (s.writes.find? fun w => decide (w.h = h)).bind (·.deadline)
  | .dumpStep => if s.dump.active then some (Config.stepDeadline 0 s.dump.tick0) else none
  | .refresh due => some (due + 3 * refreshInterval)
  | .dramStep due => some (due + 1000000)
  | .holdUpStep => match s.holdUp.step with
    | .discharging t0 | .discharging2 t0 => some (Config.stepDeadline 1 t0)
    | _ => none
  | .activationStep => s.startup.activation.map fun a => Config.stepDeadline 2 a.startedAt
  | .budgeted b => budgetDeadline s b q.arrival q.bytes

/-- Bits [31:0] of a deadline as an arbiter enters it: one more than 2³¹ ticks ahead is entered as 2³¹ − 1 ahead (R50). -/
def entered (now d : Nat) : BitVec 32 := BitVec.ofNat 32 (if now + 2 ^ 31 < d then now + 2 ^ 31 - 1 else d)

/-- One deadline is earlier than another: the sign of their 32-bit difference (R50). -/
def earlier (now a b : Nat) : Bool := (entered now a - entered now b).msb

/-- Number of a unit, by KIND and INDEX (R521). -/
def siteNumber (t : Site) : Nat := t.kind * 4096 + t.index

/-- One deadline request goes before another (R51). -/
def before (now : Nat) (a b : Nat × ArbReq) : Bool :=
  if earlier now a.1 b.1 then true
  else if earlier now b.1 a.1 then false
  else if a.2.arrival ≠ b.2.arrival then decide (a.2.arrival < b.2.arrival)
  else decide (siteNumber a.2.unit < siteNumber b.2.unit)

/-- The first of a list in an order; the first on a tie. -/
def firstBy {α : Type} (f : α → α → Bool) : List α → Option α
  | [] => none
  | x :: xs => some (xs.foldl (fun b r => if f r b then r else b) x)

/-- Requests that an arbiter may grant: for what it serves, of its members, at most one transfer long (R12, R15, R19). -/
def openReqs (s : State) (a : ArbId) (reqs : List ArbReq) : List ArbReq :=
  reqs.filter fun q => arbServes a q.resource && arbMember a q.unit && grantable s q.unit
    && decide (q.arrival ≤ s.datum ∧ 0 < q.bytes ∧ q.bytes ≤ 512)

/-- The request that an arbiter grants, with its deadline (R51): the earliest deadline, else the slice furthest behind its
share, oldest first; between two best-effort requests of the same arrival the first of the list (DESIGN CHOICE,
assumption 128). -/
def chooseReq (s : State) (a : ArbId) (reqs : List ArbReq) : Option (Option Nat × ArbReq) :=
  let l := openReqs s a reqs
  match firstBy (before s.datum) (l.filterMap fun q => (deadlineOf s q).map fun d => (d, q)) with
  | some (d, q) => some (some d, q)
  | none =>
    let rate := servedRate s (arbOf s a).served
    (firstBy (fun x y => decide (rate x.slice < rate y.slice ∨ (rate x.slice = rate y.slice ∧ x.arrival < y.arrival))) l).map
      fun q => (none, q)

/-- What granting a deadline does beside the grant: one that has passed is counted (R54), and budgeted work has spent it
(R52). -/
def spendDeadline (d : Nat) (w : Work) (s : State) : State :=
  let s := if d < s.datum then bookCount 19 { s with late := satAdd 32 s.late 1 } else s
  match w with
  | .budgeted b => { s with ledger := Tab.set s.ledger (budgetKey b) d }
  | _ => s

/-- An arbiter that is free grants one request (R51 to R54); one without power grants none (R60). -/
def execArbiterGrant (a : ArbId) (reqs : List ArbReq) (s : State) : Out :=
  .next (
    let x := arbOf s a
    match x.granted, chooseReq s a reqs with
    | none, some (d, q) =>
      if !arbPowered s a then s
      else match d with
        | some d => spendDeadline d q.work (setArb a { x with granted := some q } s)
        | none =>
          setArb a { granted := some q, served := Tab.set x.served q.slice (Tab.getD x.served q.slice 0 + 1) } s
    | _, _ => s)

/-! ### Region states (R509 to R514) -/

/-- The unit of region `r`. -/
def regionSite (r : Nat) : Site := { kind := 2, index := r }

/-- A class 0x34 entry: new STATE and cause (R522). -/
def stateEntry (r new cause related event : Nat) (s : State) : State :=
  recordNote { level := 2, cls := 0x34, site := regionSite r, aux0 := new, aux1 := cause, related := related } event s

/-- A voluntary eclipse of region `r` may start (R47, R513, R514). -/
def mayEclipse (s : State) (r : Nat) : Bool :=
  isLit s r && (List.range 8).all (fun q => isLit s q) && !anyStopped s

/-- Changes a region. -/
def modRegion (r : Nat) (f : Region → Region) (s : State) : State := setRegion s r (f (region s r))

/-- A region becomes lit (R512): its datum copy is loaded, its channels go home, what waited for its segments goes on,
event 0x03. -/
def lightRegion (r : Nat) (s : State) : State :=
  let g := region s r
  let s := setRegion s r { g with state := .lit, relighting := false, powered := true, tested := false,
                                  servicing := false, lowWindows := 0,
                                  voluntary := false, since := s.datum }
  let s := { s with copies := Tab.set s.copies r s.datum }
  let s := (List.range 4).foldl (fun s i => returnChannel (4 * r + i) s) s
  let s := (s.tables.map (·.1)).foldl (fun s n => pumpTable n s) s
  let s := if g.voluntary && s.startup.activation.isSome then
      { s with startup := { s.startup with activationRegions := s.startup.activationRegions ++ [r] } }
    else s
  let s := if s.fwPorts.svWait = some (r, 2) then
      modFw (fun p => { p with svWait := none, svStat := doneStat 0 }) s else s
  stateEntry r 0 g.cause g.related 3 s

/-- A voluntary eclipse yields to an involuntary outage of another region (R513): from penumbra it is lit at once, from
umbra it abandons its step and relights. -/
def yieldTo (s : State) (r : Nat) : State :=
  let g := region s r
  if !g.voluntary then s
  else
    let s := setRegion s r { g with voluntary := false, tested := true }
    if g.state = .penumbra then lightRegion r s else s

/-- The rule of event 0x04 when region `r` leaves service involuntarily while another is out (R47, R479, R513). -/
def outRule (s : State) (r cause : Nat) : Option Nat :=
  let out := (List.range 8).filter fun q => decide (q ≠ r) && !isLit s q
  if out.any fun q => (region s q).voluntary then some 513
  else if out.isEmpty then none
  else if cause = 2 then some 479 else some 47

/-- Host sessions with a context in a region are saved (R437, R510). -/
def saveRegionSessions (r : Nat) (s : State) : State :=
  (s.contexts.filter fun c => decide (c.1 / 8 = r)).foldl (fun s c => match c.2.owner with
    | .session n => saveSession n s
    | .task _ => s) s

/-- What leaves a region as its penumbra begins (R510): tasks that do not run migrate, but for those with an operation
busy (R330), and its channels are adopted by their alternates (R235). -/
def leaveRegion (r : Nat) (s : State) : State :=
  let s := (s.tasks.filter fun p => decide (p.2.region = r ∧ p.2.phase ≠ .running) && !opBusy p.2).foldl
    (fun s p => migrate p.1 (nextLit s r) s) s
  ((List.range 4).map (4 * r + ·)).foldl (fun s ch => if engineUp s (altRegion ch) ch then adoptChannel ch s else s) s

/-- Penumbra begins (R510). `cause` as in class 0x34; an involuntary one is counted towards R514, and voluntary ones
yield (R513). -/
def beginEclipse (r cause related : Nat) (s : State) : State :=
  let g := region s r
  if g.state ≠ .lit then s
  else
    let vol := decide (cause = 0)
    let rule := if vol then none else outRule s r cause
    let s := setRegion s r { g with
      state := .penumbra
      since := s.datum
      cause := cause
      voluntary := vol
      related := related
      tested := false
      involuntary := if vol then g.involuntary
                     else s.opsec :: g.involuntary.filter fun t => decide (s.opsec < t + 86400) }
    let s := leaveRegion r (stateEntry r 1 cause related 0 (saveRegionSessions r s))
    let s := if vol then s else ((List.range 8).filter (· ≠ r)).foldl yieldTo s
    match rule with
    | some n => atRiskNotice n (regionSite r) related s
    | none => s

/-- An eclipse begins (R509, R510): a voluntary one only where R513 allows it. -/
def execEclipseBegin (r : RegionId) (cause : Nat) (s : State) : Out :=
  .next (if cause = 0 ∧ mayEclipse s r.val = false then s else beginEclipse r.val cause 0 s)

/-- Tasks of a region. -/
def regionTasks (s : State) (r : Nat) : List (Nat × Task) := s.tasks.filter fun p => decide (p.2.region = r)

/-- Penumbra may end: nothing of the region runs, or 100 ms have passed, or its cause lies in the region itself (R510). -/
def penumbraOver (s : State) (r : Nat) : Bool :=
  let g := region s r
  !((regionTasks s r).any fun p => decide (p.2.phase = .running) || opBusy p.2)
    || decide (g.since + 10000000 ≤ s.datum) || decide (g.cause = 1)

/-- What is left of a region's tasks is restarted and moves to the next lit region (R337, R510). -/
def clearRegion (r : Nat) (s : State) : State :=
  (regionTasks s r).foldl (fun s p =>
    let s := if p.2.phase = .running then restartTask p.1 s else s
    migrate p.1 (nextLit s r) s) s

/-- Every domain of a region goes off, its handshakes first (R59, R60). -/
def regionDark (r : Nat) (s : State) : State :=
  let s := toSpacer (fun t => decide (siteRegion t = some r)) s
  { s with
    domains := s.domains.filter fun d => decide (d.1 / 47 ≠ r)
    powerQueue := s.powerQueue.filter fun k => decide (k / 47 ≠ r) }

/-- A region is retired (R514): it stays out until the next start-up; a voluntary eclipse elsewhere yields, and the
baseline is computed again. -/
def retireRegion (r : Nat) (s : State) : State :=
  let g := region s r
  if g.state = .retired then s
  else
    let s := setRegion s r { g with
      state := .retired
      relighting := false
      powered := false
      servicing := false
      voluntary := false
      cause := 4 }
    let s := regionDark r s
    let s := baselineTrigger 3 (stateEntry r 3 4 g.related 0 s)
    ((List.range 8).filter (· ≠ r)).foldl yieldTo s

/-- Umbra begins (R511): the domains go off, but for the fabric domain of a region that is being updated (R59); event
0x02. A region whose fabric sensor is broken, or that has been eclipsed involuntarily three times within 24 hours, is
retired (R484, R514). -/
def enterUmbra (r : Nat) (s : State) : State :=
  let s := regionDark r (clearRegion r s)
  let g := region s r
  let s := setRegion s r { g with state := .umbra, powered := false, servicing := g.voluntary, since := s.datum, pace := 0,
                                  lowWindows := 0 }
  let s := if g.voluntary then setDomain s r 46 .on else s
  let s := stateEntry r 2 g.cause g.related 2 s
  let often := decide (3 ≤ (g.involuntary.filter fun t => decide (s.opsec < t + 86400)).length)
  if g.sensorRetire || often then retireRegion r s else s

/-- Penumbra ends (R510, R511). -/
def execPenumbraEnd (r : RegionId) (s : State) : Out :=
  .next (if (region s r.val).state = .penumbra ∧ penumbraOver s r.val = true then enterUmbra r.val s else s)

/-- A region starts to relight (R512): after its self-test, but for an activation umbra; its T2 sensor has released it
(R479). Its domains power up in turns (R58). -/
def execRelight (r : RegionId) (s : State) : Out :=
  .next (
    let g := region s r.val
    if g.state = .umbra ∧ (g.tested || g.voluntary) = true ∧ g.t2 = false ∧ g.relighting = false then
      askPower ((powerOrder r.val).filter fun k => decide (domainState s r.val (k % 47) = .off))
        (setRegion s r.val { g with relighting := true, servicing := false })
    else s)

/-- A key-array bank has power: its segments are reloaded from the image and verified, which takes at most 10 ms (R412);
how long the spec leaves open (free value). -/
def reloadBank (k : Nat) (s : State) : State :=
  drew 1 { s with
    bankReady := Tab.set s.bankReady k (s.datum + freeNat s % 1000001)
    tables := s.tables.map fun t => (t.1, { t.2 with
      upset := t.2.upset.filter fun e => !inBank k t.2 e.1
      shadowBad := t.2.shadowBad.filter fun p => !inBank k t.2 p }) }

/-- A domain reaches power-good and frees its place (R57, R58). -/
def execDomainPowerGood (d : Domain) (s : State) : Out :=
  .next (match domainState s d.region.val d.index with
    | .poweringUp _ _ =>
      let s := takePlaces (setDomain s d.region.val d.index .on)
      let s := if 40 ≤ d.index ∧ d.index < 44 then reloadBank (4 * d.region.val + (d.index - 40)) s else s
      if d.index = 46 then modRegion d.region.val (fun g => { g with windowAt := s.datum }) s else s
    | _ => s)

/-- Every domain of a region is on. -/
def domainsReady (s : State) (r : Nat) : Bool := (List.range 47).all (domainOn s r)

/-- The banks of a region have their segments reloaded and verified (R412). -/
def banksReady (s : State) (r : Nat) : Bool := (List.range 4).all fun i => decide (Tab.getD s.bankReady (4 * r + i) 0 ≤ s.datum)

/-- A relighting region with every domain on and its segments reloaded becomes lit (R512). -/
def execRegionLit (r : RegionId) (s : State) : Out :=
  .next (if (region s r.val).relighting && domainsReady s r.val && banksReady s r.val then lightRegion r.val s else s)

/-! ### What a fault of each site brings (R15, R505, R508) -/

/-- A fault of a bank: masked when every table with segments there is mirrored; the bank is retired, and other segments
move to free groups of its region, or of the next (R505). -/
def relocateSegment (s : State) (n k : Nat) (i : Nat) : State :=
  match (Tab.get? s.tables n).bind fun t => (t.segs[i]?).map fun g => (t, g) with
  | none => s
  | some (t, g) =>
    if g.bank ≤ k ∧ k < g.bank + t.width ∧ g.mirror = none then
      match (freeGroup s (takenPlaces s) t.width (k / 4)).or (freeGroup s (takenPlaces s) t.width ((k / 4 + 1) % 8)) with
      | some p => { s with tables := Tab.set s.tables n { t with segs := t.segs.set i { g with bank := p.1, seg := p.2 } } }
      | none => s
    else s

/-- A table has a segment in bank `k` that has no copy. -/
def bareOn (k : Nat) (t : KeyTable) : Bool :=
  t.segs.any fun g => decide (g.bank ≤ k ∧ k < g.bank + t.width) && g.mirror.isNone

/-- A fault of key-array bank `k` (R505). -/
def bankFault (e : LogEntry) (k : Nat) (restorable : Bool) (s : State) : State :=
  let s := if s.tables.any fun t => bareOn k t.2 then recordDetected e s else recordMasked e s
  let s := retireUnit (bankSite k) restorable s
  s.tables.foldl (fun s t => (List.range t.2.segs.length).foldl (fun s i => relocateSegment s t.1 k i) s) s

/-- Fencing a block would end a task (R339). -/
def blockEnds (s : State) (b : Nat) : Bool := (List.range 8).any fun i => fenceEnds s (8 * b + i)

/-- A block is fenced: its tasks run again in other blocks (R15). -/
def fenceBlock (e : LogEntry) (b : Nat) (restorable : Bool) (s : State) : State :=
  let s := if blockEnds s b then recordDetected e s else recordMasked e s
  let s := retireUnit { kind := 1, index := b } restorable s
  (List.range 8).foldl (fun s i => match (coreOf s (8 * b + i)).run with
    | some t => fencedRestart t s
    | none => s) s

/-- The active queue manager is at fault (R15, R506): the standby takes over, which masks the fault `e`; in the only
manager that remains it is detected, and the controllers fail. -/
def qmSwitch (e : LogEntry) (s : State) : State :=
  let f := s.faults
  let a := f.qmActive % 2
  let b := 1 - a
  if f.qm[b]'(by omega) = 0 then
    recordMasked e { s with faults := { f with qmActive := b, qm := f.qm.set a 1 (by omega) } }
  else
    onPorts (fun p => { p with cfs := true }) (recordDetected e s)

/-- The halves of the active queue manager disagree (R506): AUX0 is the unit made active (R522). -/
def qmMismatch (s : State) : State :=
  let a := s.faults.qmActive % 2
  let next := if s.faults.qm[1 - a]'(by omega) = 0 then 1 - a else a
  qmSwitch { level := 3, cls := 0x0E, site := chipUnit a, aux0 := next } s

/-- A fault at queue manager `i` (R505): the active one hands over, the standby is tested in place. -/
def qmFault (e : LogEntry) (i : Fin 2) (s : State) : State :=
  if s.faults.qmActive % 2 = i.val then qmSwitch e s
  else recordMasked e { s with faults := { s.faults with qm := s.faults.qm.set i.val (max 1 s.faults.qm[i]) i.isLt } }

/-- The halves of the active queue manager disagree (R506). -/
def execQueueManagerMismatch (s : State) : Out := .next (qmMismatch s)

/-- The former manager has been tested in place (R506): it is restored at most once per hour of operation. -/
def execQueueManagerTestComplete (ok : Bool) (s : State) : Out :=
  .next (
    let f := s.faults
    let soon := match f.qmRestoredAt with
      | some t => decide (s.opsec < t + 3600)
      | none => false
    if f.qm[0] = 1 ∨ f.qm[1] = 1 then
      let put := fun x => f.qm.map fun v => if v = 1 then x else v
      if !ok then { s with faults := { f with qm := put 2 } }
      else if soon then s
      else { s with faults := { f with qm := put 0, qmRestoredAt := some s.opsec } }
    else s)

/-- A supervisor copy is at fault (R15, R507): it is resynchronised, which masks the fault `e`; with only two copies
left it is detected, the outputs keep their values and the charger stops. A fault of a copy that no longer votes is
masked, and one in a stopped supervisor is detected. -/
def supFault (e : LogEntry) (copy : Fin 3) (s : State) : State :=
  let f := s.faults
  if f.supStopped then recordDetected e s
  else if f.sup[copy] ≠ 0 then recordMasked e s
  else if f.sup.toList.all (· = 0) then recordMasked e { s with faults := { f with sup := f.sup.set copy.val 1 copy.isLt } }
  else recordDetected e { s with faults := { f with supStopped := true }, holdUp := { s.holdUp with charging := false } }

/-- A supervisor copy is outvoted (R507); a copy that does not vote cannot be. -/
def supMismatch (copy : Fin 3) (s : State) : State :=
  if s.faults.sup[copy] ≠ 0 ∨ s.faults.supStopped = true then s
  else supFault { level := 3, cls := 0x0F, site := chipUnit (4 + copy.val), aux0 := copy.val } copy s

/-- A supervisor copy is outvoted (R507). -/
def execSupervisorVoteMismatch (copy : Fin 3) (s : State) : Out := .next (supMismatch copy s)

/-- The resynchronisation of a copy ends; one that fails retires it (R507). -/
def execSupervisorResyncComplete (copy : Fin 3) (ok : Bool) (s : State) : Out :=
  .next (
    let f := s.faults
    if f.sup[copy] = 1 then { s with faults := { f with sup := f.sup.set copy.val (if ok then 0 else 2) copy.isLt } } else s)

/-- A fault at a site, recorded and handled at its level (R15, R505); `restorable` as R508 says of its cause. -/
def siteFault (e : LogEntry) (t : Site) (restorable : Bool) (s : State) : State :=
  match t.kind with
  | 0 => fenceCore t.index restorable (recordCell e t.index s)
  | 1 => fenceBlock e t.index restorable s
  | 2 =>
    let s := recordMaskedByEclipse e s
    beginEclipse t.index 1 s.faults.newest s
  | 3 => retireUnit t restorable (recordMasked e s)
  | 4 => bankFault e t.index restorable s
  | 5 => if t.index % 2 = 0 then fenceBlock e (t.index / 2) restorable s else retireUnit t restorable (recordMasked e s)
  | 6 =>
    let s := retireUnit t restorable (recordMasked e s)
    if t.index % 2 = 1 then digestEngineOut (t.index / 2) s else s
  | 7 => failChannel t.index (recordMasked e s)
  | 9 => failDram t.index 1 (recordMasked e s)
  | 11 =>
    if h : t.index < 2 then qmFault e ⟨t.index, h⟩ s
    else if h : 4 ≤ t.index ∧ t.index ≤ 6 then supFault e ⟨t.index - 4, by omega⟩ s
    else recordDetected e s
  | _ => recordDetected e s

/-- Sentinel bound of a level, ticks (R12). -/
def levelBound (l : Level) : Nat :=
  match l with
  | .cell => 200
  | .block => 2000
  | .region => 20000
  | .chip => 200000

/-- LEVEL of a level of R12 (R519). -/
def levelCode (l : Level) : Nat :=
  match l with
  | .cell => 0
  | .block => 1
  | .region => 2
  | .chip => 3

/-- A handshake has stayed open beyond its level's bound: a stall, whose unit is fenced or retired and its handshakes
forced to spacer (R13, R15). -/
def execStallSentinelExpiry (lvl : Level) (site : Site) (since : Nat) (s : State) : Out :=
  .next (
    let open' := s.datum - since
    if open' ≤ levelBound lvl then s
    else siteFault { level := levelCode lvl, cls := 0x03, site := site, aux0 := levelCode lvl, aux1 := open' } site true
      (toSpacer (fun t => decide (t = site)) s))

/-- The receiver's test of the codes a bit goes through (R17): 0b00 is spacer, 0b01 and 0b10 are valid; 0b11, or a valid
code that follows another directly, is a violation. -/
def codeViolated : List (BitVec 2) → Bool
  | [] => false
  | x :: xs => decide (x = 3) || (match xs with
    | y :: _ => decide (x ≠ 0 ∧ y ≠ 0 ∧ y ≠ x)
    | [] => false) || codeViolated xs

/-- The first handshake with a code violation. -/
def firstViolation (seen : FabricSeen) : Option Nat := (seen.wires.find? fun w => codeViolated w.2).map (·.1)

/-- Even parity of a byte and its parity bit holds (R18). -/
def parityOk (x : BitVec 9) : Bool := ((List.range 9).filter fun i => x.getLsbD i).length % 2 = 0

/-- The first byte lane whose parity does not hold. -/
def badLane (data : List (BitVec 9)) : Option Nat := data.findIdx? fun x => !parityOk x

/-- A transfer that an arbiter has granted is made and frees it; its receiver may find a code violation, or a parity
mismatch, upon which the datum is discarded and the transfer is repeated once from the sender's copy (R17 to R19). A unit
without power is never seen as a violation (R60). -/
def execFabricTransfer (a : ArbId) (site : Site) (seen : FabricSeen) (s : State) : Out :=
  .next (
    let x := arbOf s a
    match x.granted with
    | none => s
    | some q =>
      let s := setArb a { x with granted := none } s
      let e : LogEntry := { level := levelOf site, cls := 0x01, site := site }
      if !sitePowered s site || decide (q.bytes < seen.data.length) then s
      else match firstViolation seen, badLane seen.data with
        | some h, _ => siteFault { e with aux0 := h } site true s
        | none, none => s
        | none, some lane =>
          if (badLane seen.again).isNone then recordMasked { e with cls := 0x02, aux0 := lane, aux1 := 1 } s
          else siteFault { e with cls := 0x02, aux0 := lane } site true s)

/-- An SRAM sweep reads a word and decodes it (R267): a corrected word is rewritten; an instruction-cache line is
fetched again and an entry of a slice translation unit is read again from its table, masked faults (R463); a word of a
task's data ends the task as a bad burst of compute memory does; any other bad word is a fault of its unit, which stays
retired until the next start-up (R508). -/
def execSramSweep (site : Site) (lvl : Level) (addr : Nat) (syndrome : BitVec 7) (addressBits : Nat) (use : SramUse) (s : State) :
    Out :=
  .next (
    let e : LogEntry := { level := levelCode lvl, cls := 0x07, site := site, addr := addr }
    match sramOutcome syndrome addressBits, use with
    | .clean, _ | .corrected _, _ => s
    | _, .instrCache | _, .stuEntry => recordMasked e s
    | _, .taskData t => endTask t 0x83 (recordDetected { e with slice := ((taskOf s t).map (·.slice)).getD 0xFFFF } s)
    | _, .other => siteFault e site false s)

/-- The step of self-test that tests a unit (R504): region fabric, scheduler and translation unit; a block's SRAM, arbiter
and DMA engine; core cells; channel engines, banks, compression engines and hashers. -/
def testStep (t : Site) : Nat :=
  match t.kind with
  | 2 => 1
  | 1 => 2
  | 5 => if t.index % 2 = 0 then 2 else 4
  | 0 => 3
  | _ => 4

/-- One unit fails self-test (R504, R514). -/
def testFailed (r : Nat) (s : State) (f : Site) : State :=
  let e : LogEntry := { level := levelOf f, cls := 0x14, site := f, aux0 := testStep f }
  if siteRegion f ≠ some r then s
  else if f.kind = 2 then retireRegion r (recordMaskedByEclipse e s)
  else if f.kind = 4 then bankFault e f.index false s
  else retireUnit f false (recordMasked e s)

/-- The units of region `r` that fail, in the order of their tests (R504). -/
def testAll (r : Nat) (failed : List Site) (s : State) : State :=
  ([1, 2, 3, 4].flatMap fun n => failed.filter fun t => decide (testStep t = n)).foldl (testFailed r) s

/-- A restored core is no longer fenced. -/
def unfence (t : Site) (s : State) : State :=
  if t.kind = 0 then setCore s t.index { coreOf s t.index with fenced := false } else s

/-- Self-test of a region in umbra (R504, R508): units that fail are retired, and restorable ones that pass return. In
the umbra of a firmware activation it runs on the retired units only. The fabric domain is on throughout and each other
domain for its own test, through a place of R58, which must be free; they are off again when the test ends (R59). -/
def execSelfTest (r : RegionId) (failed : List Site) (s : State) : Out :=
  .next (
    if (region s r.val).state ≠ .umbra ∨ 8 ≤ poweringCount s then s
    else
      let bad := if (region s r.val).voluntary then failed.filter (unitRetired s) else failed
      let back := s.faults.retired.filter fun u =>
        u.restorable && decide (siteRegion u.site = some r.val) && !bad.contains u.site
      let s := testAll r.val bad s
      let s := back.foldl (fun s u => restoreUnit u.site (unfence u.site s)) s
      modRegion r.val (fun g => { g with tested := true }) s)

/-! ### Pace (R32, R35) -/

/-- A window of 10,000 ticks of a region's benchmark ring ends, and the next begins (R32): the pace is recorded, and two
low windows of a lit region are a detected fault that begins its eclipse (R35). The ring runs while the fabric domain
has power. -/
def execPaceWindowEnd (r : RegionId) (cycles : Nat) (s : State) : Out :=
  .next (
    let g := region s r.val
    if g.state = .umbra ∨ g.state = .retired ∨ domainOn s r.val 46 = false ∨ s.datum < g.windowAt + 10000 then s
    else
      let p := min 65535 (cycles * 1000 / max 1 (Config.nominalCycles r.val))
      let lit := decide (g.state = .lit)
      let low := if lit && decide (p < 643) then g.lowWindows + 1 else 0
      let s := setRegion s r.val { g with
        pace := p
        paceMin := if g.paceMax = 0 then p else min g.paceMin p
        paceMax := max g.paceMax p
        windowAt := g.windowAt + 10000
        lowWindows := low }
      let s := bookMax (24 + r.val) p r.val (if lit then bookMin (16 + r.val) p r.val s else s)
      if low < 2 then s
      else
        let s := recordDetected { level := 2, cls := 0x0A, site := regionSite r.val, aux0 := p } s
        let fault := s.faults.newest
        atRiskNotice 35 (regionSite r.val) fault (beginEclipse r.val 3 fault s))

/-! ### The supervisor mailbox (R515) and the trace ring (R516) -/

/-- A class of R522. -/
def classDefined (c : Nat) : Bool :=
  decide ((0x01 ≤ c ∧ c ≤ 0x19) ∨ c = 0x20 ∨ c = 0x21 ∨ (0x30 ≤ c ∧ c ≤ 0x39))

/-- A class whose OUTCOME is always 2 (R522). -/
def classNote (c : Nat) : Bool := decide (c = 0x20 ∨ c = 0x21 ∨ 0x30 ≤ c)

/-- A site number: KIND and INDEX (R521). -/
def siteOf (x : Nat) : Site := { kind := x / 4096 % 16, index := x % 4096 }

/-- The site names a unit of R521. -/
def siteDefined (t : Site) : Bool :=
  match t.kind with
  | 0 => decide (t.index < 256)
  | 1 => decide (t.index < 32)
  | 2 => decide (t.index < 8)
  | 3 => decide (t.index < 32)
  | 4 => decide (t.index < 32)
  | 5 => decide (t.index < 64)
  | 6 => decide (t.index < 16)
  | 7 => decide (t.index < 32)
  | 8 => decide (t.index < 1024)
  | 9 => decide (t.index < 8)
  | 10 => decide (t.index < 68)
  | 11 => decide (t.index < 17)
  | _ => false

/-- SV_STAT with DONE and a status. -/
def svDone (st : Nat) (s : State) : State := modFw (fun p => { p with svStat := doneStat st }) s

/-- OP 1: a voluntary eclipse (R513, R515). -/
def svEclipseCmd (t : Site) (s : State) : State :=
  if t.kind ≠ 2 ∨ 8 ≤ t.index then svDone 0x07 s
  else if !mayEclipse s t.index then svDone 0x20 s
  else svDone 0 (beginEclipse t.index 0 0 s)

/-- OP 2: relight; DONE follows once the region is lit (R515). -/
def svRelightCmd (t : Site) (s : State) : State :=
  if t.kind ≠ 2 ∨ 8 ≤ t.index then svDone 0x07 s
  else if h : t.index < 8 ∧ (region s t.index).state = .umbra then
    match execRelight ⟨t.index, h.1⟩ (modFw (fun p => { p with svStat := 0, svWait := some (t.index, 2) }) s) with
    | .next s => s
    | _ => s
  else if (region s t.index).state = .lit then svDone 0 s
  else svDone 0x20 s

/-- OP 3: an entry of CLASS at SITE (R515). For a class that may be masked or detected the spec does not say which
firmware records: a free value (assumption 24). -/
def svRecordCmd (cls : Nat) (t : Site) (s : State) : State :=
  if !classDefined cls || !siteDefined t then svDone 0x07 s
  else
    let e : LogEntry := { level := levelOf t, cls := cls, site := t, addr := s.fwPorts.svDetail.toNat }
    svDone 0 (if classNote cls then recordNote e 0 s
      else if freeNat s % 2 = 0 then recordMasked e (drew 1 s) else recordDetected e (drew 1 s))

/-- OP 4: retires the unit at SITE (R515): a region is retired when its eclipse reaches umbra. -/
def svRetireCmd (t : Site) (s : State) : State :=
  if !siteDefined t then svDone 0x07 s
  else if t.kind = 2 then
    svDone 0 (beginEclipse t.index 4 0 (modRegion t.index (fun g => { g with sensorRetire := true }) s))
  else if t.kind = 8 then svDone 0 (retireDie t.index 3 s)
  else
    let s := if t.kind = 0 then fenceCore t.index false s else retireUnit t false s
    svDone 0 (if t.kind = 6 ∧ t.index % 2 = 1 then digestEngineOut (t.index / 2) s else s)

/-- A write of SV_CMD (R515); SV_STAT answers an invalid OP with 0x07. -/
def svCmd (x : Word) (s : State) : State :=
  let t := siteOf (bits x.toNat 15 0)
  match bits x.toNat 31 28 with
  | 1 => svEclipseCmd t s
  | 2 => svRelightCmd t s
  | 3 => svRecordCmd (bits x.toNat 23 16) t s
  | 4 => svRetireCmd t s
  | _ => svDone 0x07 s

/-- REGIONS (R70): masks of the regions retired, in umbra, in penumbra and lit; LIT is 0 until start-up has powered the
regions. -/
def regionsWord (s : State) : Nat :=
  let m := fun k => regionMask fun r => decide (stateCode (region s r) = k)
  m 3 * 2 ^ 24 + m 2 * 2 ^ 16 + m 1 * 2 ^ 8 + (if s.startup.regionsUp then m 0 else 0)

/-- Reads of ports 0x0A00 to 0x0AFF, by offset (R515). -/
def svPortRead (p : Nat) (s : State) : Word :=
  match p with
  | 0x01 => s.fwPorts.svDetail
  | 0x02 => s.fwPorts.svStat
  | 0x03 => BitVec.ofNat 32 (regionsWord s)
  | 0x04 => BitVec.ofNat 32 s.faults.newest
  | _ => 0

/-- Writes of ports 0x0A00 to 0x0AFF, by offset (R515). -/
def svPortWrite (p : Nat) (x : Word) (s : State) : State :=
  match p with
  | 0x00 => svCmd x s
  | 0x01 => modFw (fun q => { q with svDetail := x }) s
  | _ => s

/-- The trace ring of region `r`. -/
def traceOf (s : State) (r : Nat) : List (Word × Nat × Nat) := Tab.getD s.fwPorts.trace r []

/-- Appends a trace word with the datum and the core number while EN is 1; the oldest words leave a full ring (R516). -/
def traceAppend (v : View) (x : Word) (s : State) : State :=
  if s.fwPorts.trEn then
    let r := v.c / 32
    let l := traceOf s r ++ [(x, s.datum, v.c)]
    modFw (fun q => { q with trace := Tab.set q.trace r (l.drop (l.length - Config.traceWords)) }) s
  else s

/-- Reads of ports 0x0F00 to 0x0F02, by offset (R516). -/
def trPortRead (v : View) (p : Nat) (s : State) : Word :=
  match p with
  | 0x00 => BitVec.ofNat 32 (flagBit s.fwPorts.trEn 31)
  | 0x02 => BitVec.ofNat 32 (min 65535 (traceOf s (v.c / 32)).length)
  | _ => 0

/-- Writes of ports 0x0F00 to 0x0F02, by offset (R516). -/
def trPortWrite (v : View) (p : Nat) (x : Word) (s : State) : State :=
  match p with
  | 0x00 => modFw (fun q => { q with trEn := x.getLsbD 31 }) s
  | 0x01 => traceAppend v x s
  | _ => s

end Sys2Proof.Machine
end

