-- ==== Sys2Proof/Machine/Thermal.lean ====
section
/-! DEFINITION. Temperature (R469 to R488), the conversions of VIN (R490), the regulator's alert (R579). Readings are in
0.25 °C units; VIN is in 10 mV units. -/

namespace Sys2Proof.Machine

/-- The unit of a sensor (R521). -/
def sensorSite (n : Nat) : Site := { kind := 10, index := n }

/-- Changes a sensor. -/
def modSensor (n : Nat) (f : Sensor → Sensor) (s : State) : State :=
  { s with thermal := { s.thermal with sensors := Tab.set s.thermal.sensors n (f (sensorOf s n)) } }

/-! ### Threshold states (R472) -/

/-- One sample of a threshold state: `beyond` it, or at least 3 °C `back` from it; any other sample resets the count. -/
def hystStep (beyond back : Bool) (h : Hyst) : Hyst :=
  if (if h.inside then back else beyond) then
    if 1 ≤ h.count then { inside := !h.inside, count := 0 } else { h with count := h.count + 1 }
  else { h with count := 0 }

/-- One sample of a high-side threshold; `m` is the margin of 3 °C. -/
def hystHigh (thr m t : Int) (h : Hyst) : Hyst := hystStep (decide (thr ≤ t)) (decide (t ≤ thr - m)) h

/-- One sample of a low-side threshold. -/
def hystLow (thr m t : Int) (h : Hyst) : Hyst := hystStep (decide (t ≤ thr)) (decide (thr + m ≤ t)) h

/-- Ticks to the next sample of an on-die sensor (R471, R473). -/
def sampleGap (t : Int) : Nat :=
  if nearAny 12 [500] t then 25000 else if nearAny 20 [420, 460, 500] t then 200000 else 1600000

/-- Ticks to the next sample of thermistor `k`: TH1 to TH3 have no thresholds (R471, R473). -/
def thGap (k : Nat) (t : Int) : Nat := if k = 0 ∧ nearAny 20 [-120, 280, 340] t = true then 200000 else 1600000

/-! ### Enforcement (R475 to R477, R480) -/

/-- A valid on-die sensor is in T1 or above (R474). -/
def anyT1 (s : State) : Bool :=
  (List.range 64).any fun n => !(sensorOf s n).broken && (sensorOf s n).t1.inside

/-- A sensor of R480 holds level 8: it is in T2, or broken. -/
def holdsEight (s : State) : Bool :=
  ((List.range 24).map (· + 40)).any fun n => (sensorOf s n).broken || (sensorOf s n).t2.inside

/-- The trim of a region under enforcement (R476). -/
def trimOf (s : State) (r : Nat) : Nat :=
  let hot := (regionSensors r).any fun n => !(sensorOf s n).broken && (sensorOf s n).t1.inside
  if 0 < s.thermal.level && hot then min (2 * s.thermal.level) (min 16 ((s.vcore.vset - 600) / 5)) else 0

/-- Sets every region's trim (R476). -/
def setTrims (s : State) : State := { s with regions := s.regions.map fun r => (r.1, { r.2 with trim := trimOf s r.1 }) }

/-- A class 0x31 entry (R522). -/
def throttleEntry (level event : Nat) (site : Site) (s : State) : State :=
  recordNote { level := 3, cls := 0x31, site := site, aux0 := level } event s

/-- The hottest on-die sensor, the site of an entry about enforcement. -/
def hottestSite (s : State) : Site := sensorSite (((hottestOf s (List.range 64)).map (·.1)).getD 0)

/-- Enforcement moves to a level. -/
def setLevel (level : Nat) (s : State) : State :=
  setTrims { s with thermal := { s.thermal with level := level, levelAt := s.datum, graceStart := none } }

/-- Enforcement starts: counted, recorded, event 0x06 (R475, R488). -/
def startEnforcement (level : Nat) (site : Site) (s : State) : State :=
  let s := setLevel level s
  let m := s.smart
  throttleEntry level 6 site (bookCount 15 { s with smart := { m with tmt1Count := m.tmt1Count + 1 } })

/-- Entry into T1 and exit from it (R474, R475, R477). -/
def judgeT1 (s : State) : State :=
  let now := anyT1 s
  let th := s.thermal
  if now = th.inT1 then setTrims s
  else if now then
    if th.level = 0 then setTrims { s with thermal := { th with inT1 := true, graceStart := some s.datum } }
    else setLevel (min 8 (th.level + 1)) { s with thermal := { th with inT1 := true } }
  else setTrims { s with thermal := { th with inT1 := false, graceStart := none, levelAt := s.datum } }

/-- The grace ends with the device still in T1: enforcement begins at level 1 (R475). -/
def execThermalGraceExpiry (s : State) : Out :=
  .next (match s.thermal.graceStart with
    | some d =>
      if s.thermal.inT1 && decide (s.thermal.level = 0 ∧ d + s.features.grace * 10000000 ≤ s.datum) then
        startEnforcement 1 (hottestSite s) s
      else s
    | none => s)

/-- In T1 the level rises every 2,000,000 ticks (R477). -/
def execEnforcementLevelRise (s : State) : Out :=
  .next (
    let th := s.thermal
    if th.inT1 && decide (1 ≤ th.level ∧ th.level < 8 ∧ th.levelAt + 2000000 ≤ s.datum) then setLevel (th.level + 1) s
    else s)

/-- Out of T1, and with no sensor of R480 in T2, the level falls every 10,000,000 ticks (R477, R480). -/
def execEnforcementLevelFall (s : State) : Out :=
  .next (
    let th := s.thermal
    if !th.inT1 && !holdsEight s && decide (1 ≤ th.level ∧ th.levelAt + 10000000 ≤ s.datum) then
      let s := setLevel (th.level - 1) s
      if th.level = 1 then throttleEntry 0 0 (hottestSite s) s else s
    else s)

/-! ### T2 stops (R478 to R480) -/

/-- Domains of a block: its eight core cells and the block itself (R55). -/
def blockDomains (b : Nat) : List Nat := ((List.range 8).map fun i => 8 * (b % 4) + i) ++ [32 + b % 4]

/-- Tasks that run on the cores of block `b`. -/
def blockTasks (s : State) (b : Nat) : List (Nat × Task) :=
  s.tasks.filter fun p => match coreOfTask s p.1 with
    | some c => decide (c / 8 = b)
    | none => false

/-- The domains of a stopped block go off once nothing runs in it (R478). -/
def blockOff (b : Nat) (s : State) : State :=
  if (blockTasks s b).isEmpty then (blockDomains b).foldl (fun s i => switchOff (b / 4) i s) s else s

/-- A T2 stop is counted (R488, R529). -/
def countStop (s : State) : State :=
  let m := s.smart
  bookCount 16 { s with smart := { m with tmt2Count := m.tmt2Count + 1 } }

/-- A block stops (R478): its tasks leave it at their next instruction boundary; with another region out of service, event
0x04 (R479); a voluntary eclipse elsewhere yields (R513). -/
def stopBlock (b : Nat) (s : State) : State :=
  if s.thermal.t2Blocks.any fun x => decide (x.1 = b) then s
  else
    let r := b / 4
    let rule := outRule s r 2
    let s := countStop { s with thermal := { s.thermal with t2Blocks := s.thermal.t2Blocks ++ [(b, s.datum)] } }
    let s := (blockTasks s b).foldl (fun s p => if opBusy p.2 then s else suspendTask p.1 s) s
    let s := ((List.range 8).filter (· ≠ r)).foldl yieldTo (blockOff b s)
    match rule with
    | some n => atRiskNotice n { kind := 1, index := b } 0 s
    | none => s

/-- A region fabric sensor stops its region (R478). -/
def stopRegion (r : Nat) (s : State) : State :=
  if (region s r).t2 then s
  else beginEclipse r 2 0 (countStop (modRegion r (fun g => { g with t2 := true }) s))

/-- A sensor enters T2, or reads as if it had (R478, R480, R484). -/
def enterT2 (n : Nat) (s : State) : State :=
  if n < 32 then stopBlock n s
  else if n < 40 then stopRegion (n - 32) s
  else if s.thermal.level = 0 then startEnforcement 8 (sensorSite n) s
  else throttleEntry 8 6 (sensorSite n) (setLevel 8 s)

/-- A unit stopped at T2 whose sensor has cooled resumes (R479): a block is powered again through the places of R58, but
not in umbra (R59); a region may relight. -/
def resumeUnit (n : Nat) (s : State) : State :=
  if n < 32 then
    if s.thermal.t2Blocks.any fun x => decide (x.1 = n) then
      let s := { s with thermal := { s.thermal with t2Blocks := s.thermal.t2Blocks.filter fun x => decide (x.1 ≠ n) } }
      if (region s (n / 4)).state = .lit ∨ (region s (n / 4)).state = .penumbra then
        askPower ((blockDomains n).reverse.map (domainKey (n / 4))) s
      else s
    else s
  else if n < 40 then modRegion (n - 32) (fun g => { g with t2 := false }) s
  else s

/-- A task still runs 100 ms after its block has stopped: it is restarted, and the domains go off (R478). -/
def execT2BlockStopTimeout (r : RegionId) (b : Fin 4) (s : State) : Out :=
  .next (
    let k := 4 * r.val + b.val
    match s.thermal.t2Blocks.find? fun x => decide (x.1 = k) with
    | none => s
    | some (_, d) =>
      if s.datum < d + 10000000 then s
      else blockOff k ((blockTasks s k).foldl (fun s p => restartTask p.1 s) s))

/-! ### T3 (R481) -/

/-- The trip is latched: the controllers fail, and the dump begins (R481). -/
def trip (s : State) : State :=
  if s.thermal.t3 then s
  else
    let s := { s with thermal := { s.thermal with t3 := true, tripsDue := s.thermal.tripsDue + 1 } }
    let s := onPorts (fun p => { p with cfs := true }) s
    if s.dump.active || s.dump.poweredDown || !s.startup.done then s else startDump s

/-! ### Broken sensors (R483, R484) -/

/-- The charging window changes (R485): class 0x33, and the charger stops or starts. -/
def judgeCharging (t : Int) (s : State) : State :=
  let x := sensorOf s 64
  let bad := x.broken || x.low.inside || x.t1.inside
  if bad = s.holdUp.forbidden then s
  else
    let s := recordNote { level := 5, cls := 0x33, site := sensorSite 64, aux0 := tc32 (t.fdiv 4) } 0
      { s with holdUp := { s.holdUp with forbidden := bad } }
    if bad then abandonMeasurement true 2 { s with holdUp := { s.holdUp with charging := false } }
    else startCharger s

/-- A sensor is broken (R484): a detected fault; its unit acts as at 116 °C; its block's cores count as retired, its
region is retired on reaching umbra. -/
def breakSensor (n cause : Nat) (s : State) : State :=
  if (sensorOf s n).broken then s
  else
    let s := modSensor n (fun x => { x with broken := true }) s
    let s := bookCount 20 (recordDetected { level := levelOf (sensorSite n), cls := 0x17, site := sensorSite n, aux0 := cause } s)
    if 64 ≤ n then (if n = 64 then judgeCharging ((sensorOf s 64).reading.getD 0) s else s)
    else
      let s := if n < 32 then retireUnit { kind := 1, index := n } false s
               else if n < 40 then
                 let s := modRegion (n - 32) (fun g => { g with sensorRetire := true }) s
                 if (region s (n - 32)).state = .umbra then retireRegion (n - 32) s else s
               else s
      judgeT1 (enterT2 n s)

/-- The supervisor's self-check of the sensors, every 10 s: two failures in a row break one (R483). -/
def execSensorSelfCheck (failed : List Nat) (s : State) : Out :=
  .next (if s.datum < s.thermal.checkAt then s
  else (List.range 68).foldl (fun s n =>
    if failed.contains n then
      let again := decide (1 ≤ (sensorOf s n).checkFails)
      let s := modSensor n (fun x => { x with checkFails := x.checkFails + 1 }) s
      if again then breakSensor n 1 s else s
    else if (sensorOf s n).checkFails = 0 then s
    else modSensor n (fun x => { x with checkFails := 0 }) s)
    { s with thermal := { s.thermal with checkAt := s.datum + 1000000000 } })

/-- Sensors whose readings an unchanged code is held against: the others of the region, or the supervisor's (R483). -/
def peersOf (n : Nat) : List Nat :=
  if n < 32 then (regionSensors (n / 4)).filter (· ≠ n)
  else if n < 40 then (regionSensors (n - 32)).filter (· ≠ n)
  else if n = 63 then [] else [63]

/-- The readings of the peers now. -/
def peerReadings (s : State) (n : Nat) : List (Nat × Int) :=
  (peersOf n).filterMap fun m => (validReading s m).map fun t => (m, t)

/-- A peer's reading has changed by 4 °C or more since the first of the samples. -/
def peersMoved (old new : List (Nat × Int)) : Bool :=
  old.any fun e => new.any fun f => decide (e.1 = f.1 ∧ (16 ≤ f.2 - e.2 ∨ 16 ≤ e.2 - f.2))

/-- What a sample leaves in its sensor's record (R471, R472, R479, R483). -/
def sampleSensor (n : Nat) (t : Int) (code : Nat) (s : State) : State :=
  let x := sensorOf s n
  let out := decide (t < -220 ∨ 600 < t)
  let same := decide (0 < x.same ∧ x.code = code)
  modSensor n (fun x => { x with
    reading := some t
    t1 := hystHigh 420 12 t x.t1
    t2 := hystHigh 460 12 t x.t2
    t3 := hystHigh 500 12 t x.t3
    cool := if t ≤ 420 then x.cool + 1 else 0
    rangeFails := if out then x.rangeFails + 1 else 0
    code := code
    same := if same then x.same + 1 else 1
    peers := if same then x.peers else peerReadings s n
    nextSample := s.datum + sampleGap t }) s

/-- A code unchanged over 64 samples while a peer moved; a full count starts again (R483). -/
def stuck (n : Nat) (s : State) : Bool :=
  let x := sensorOf s n
  decide (64 ≤ x.same) && peersMoved x.peers (peerReadings s n)

/-! ### Temperatures of R487 -/

/-- One sample of a temperature's two thresholds; each entry raises the event. -/
def sampleTemp (tmpsel : Nat) (k : Int) (s : State) : State :=
  let th := fun i d => Tab.getD s.features.thresholds (2 * tmpsel + i) d
  let over0 := Tab.getD s.thermal.temps (2 * tmpsel) {}
  let under0 := Tab.getD s.thermal.temps (2 * tmpsel + 1) {}
  let above := hystHigh (th 0 378) 3 k over0
  let below := hystLow (th 1 233) 3 k under0
  let s := { s with thermal := { s.thermal with
    temps := Tab.set (Tab.set s.thermal.temps (2 * tmpsel) above) (2 * tmpsel + 1) below } }
  let s := if above.inside && !over0.inside then smartEvent 1 1 s else s
  if below.inside && !under0.inside then smartEvent 1 1 s else s

/-- A sample of a temperature is taken when sensor `n` is the highest of its set (R487). -/
def sampleSet (tmpsel n : Nat) (l : List Nat) (s : State) : State :=
  match hottestOf s l, validReading s n with
  | some (_, t), some u => if l.contains n && decide (t ≤ u) then sampleTemp tmpsel (kelvin t) s else s
  | _, _ => s

/-- Region of an on-die sensor of a region. -/
def sensorRegion (n : Nat) : Option Nat := if n < 32 then some (n / 4) else if n < 40 then some (n - 32) else none

/-- The temperatures that a sensor's sample belongs to. -/
def sampleTemps (n : Nat) (s : State) : State :=
  let s := sampleSet 0 n (List.range 64) s
  match sensorRegion n with
  | some r => sampleSet (r + 1) n (regionSensors r) s
  | none => s

/-! ### Extremes (R215, R530) -/

/-- Extremes of on-die temperatures since manufacture, in °C (R215). -/
def dieExtremes (t : Int) (s : State) : State :=
  let c := t.fdiv 4
  let put := fun (k : Nat) (better : Int → Bool) (m : Tab (Int × Nat × Nat)) =>
    match Tab.get? m k with
    | some (v, _, _) => if better v then Tab.set m k (c, s.opsec, s.pcc) else m
    | none => Tab.set m k (c, s.opsec, s.pcc)
  let m := s.media
  { s with media := { m with tempExt := put 1 (fun v => decide (c < v)) (put 0 (fun v => decide (v < c)) m.tempExt) } }

/-- The Tj extremes of a sensor's region (R530). -/
def tjExtremes (n : Nat) (s : State) : State :=
  match sensorRegion n with
  | none => s
  | some r =>
    match hottestOf s (regionSensors r) with
    | some (m, t) => bookMin (8 + r) t m (bookMax r t m s)
    | none => s

/-! ### Samples (R470 to R485) -/

/-- The thermal state of a sensor: 0 below T1, else the highest threshold whose state it is in. AUX0 of class 0x30 holds
the state after the change (DEDUCED, assumption 26). -/
def thermalState (x : Sensor) : Nat := if x.t3.inside then 3 else if x.t2.inside then 2 else if x.t1.inside then 1 else 0

/-- A sample of an on-die sensor, when it is due (R471). -/
def sampleOnDie (n : Nat) (t : Int) (code : Nat) (s : State) : State :=
  let x := sensorOf s n
  if s.datum < x.nextSample then s
  else if x.broken then
    modSensor n (fun x => { x with reading := some t, code := code, nextSample := s.datum + sampleGap t }) s
  else
    let s := sampleSensor n t code s
    let y := sensorOf s n
    let s := if 2 ≤ y.rangeFails then breakSensor n 2 s else if stuck n s then breakSensor n 3 s else s
    if (sensorOf s n).broken then s
    else
      let s := if 64 ≤ y.same then modSensor n (fun x => { x with same := 1, peers := peerReadings s n }) s else s
      let s := sampleTemps n (tjExtremes n (dieExtremes t s))
      let s := if thermalState y = thermalState x then s
        else recordNote { level := levelOf (sensorSite n), cls := 0x30, site := sensorSite n, aux0 := thermalState y,
                          aux1 := tc32 (t.fdiv 4) } 0 s
      let s := if y.t3.inside && !x.t3.inside then trip s else s
      if !s.startup.done then s
      else
        let s := if y.t2.inside && !x.t2.inside then enterT2 n s else s
        let s := if 2 ≤ y.cool then resumeUnit n s else s
        judgeT1 s

/-- A sample of thermistor `k` (R470, R473, R485, R530): TH0 governs the charger; two readings of 85 °C latch it off. -/
def sampleTh (k : Nat) (t : Int) (s : State) : State :=
  let n := 64 + k
  if (sensorOf s n).broken = true ∨ s.datum < (sensorOf s n).nextSample then s
  else
    let s := modSensor n (fun x => { x with
      reading := some t
      t1 := hystHigh 280 12 t x.t1
      low := hystLow (-120) 12 t x.low
      t2 := hystHigh 340 12 t x.t2
      nextSample := s.datum + thGap k t }) s
    let s := bookMin (38 + k) t n (bookMax (34 + k) t n s)
    if k ≠ 0 then s
    else
      let s := judgeCharging t s
      if (sensorOf s 64).t2.inside && !s.holdUp.latched then
        let s := { s with holdUp := { s.holdUp with latched := true, charging := false } }
        let s := recordNote { level := 5, cls := 0x33, site := sensorSite 64, aux0 := tc32 (t.fdiv 4) } 0 (bookCount 14 s)
        abandonMeasurement true 2 s
      else s

/-- A spare thermistor is read only when the strap image enables it (R470). -/
def thRead (s : State) (k : Nat) : Bool := decide (k < 2) || bit (((strapOf s).map (·.thEn)).getD 0) (k - 2)

/-- A temperature sample (R470 to R488). -/
def sensorSample (src : TempSource) (t : Int) (code : Nat) (s : State) : State :=
  if !s.vaon then s
  else match src with
    | .onDie n => sampleOnDie n.val t code s
    | .th k => if thRead s k.val then sampleTh k.val t s else s

/-! ### Supply (R490, R579) -/

/-- VIN is converted every 1 ms (R490, R530, R531). -/
def execVinConversion (v : Nat) (s : State) : Out :=
  .next (
    if s.vaon = false ∨ s.datum < s.supply.convertAt then s
    else
      let u := s.supply
      let s := { s with
        supply := { u with
          vin := v
          convertAt := s.datum + 100000
          vinMinSecond := some (min v (u.vinMinSecond.getD v))
          overvolted := u.overvolted && decide (1650 < v) }
        dump := { s.dump with lowestVin := if s.dump.active then min v s.dump.lowestVin else s.dump.lowestVin } }
      bookMin 33 v 0 (bookMax 32 v 0 s))

/-- VIN has stayed above 16.5 V for 200 ticks: it is recorded, and nothing else is done (R490). -/
def execVinOvervoltage (v : Nat) (s : State) : Out :=
  .next (
    if s.supply.overvolted || decide (v ≤ 1650) then s
    else bookCount 18 (recordNote { level := 5, cls := 0x36, site := chipUnit 13, aux0 := v } 0
      { s with supply := { s.supply with overvolted := true } }))

/-- PMB_ALERT_N is asserted: STATUS_WORD is read and recorded as a detected fault, and CLEAR_FAULTS written (R579). The
reading stands in AUX1 (DEDUCED, assumption 25). -/
def execPmbAlert (statusWord : Nat) (s : State) : Out :=
  .next (recordDetected { level := 3, cls := 0x0D, site := chipUnit 9, aux0 := s.vcore.vset, aux1 := statusWord }
    { s with supply := { s.supply with lastAlert := statusWord } })

end Sys2Proof.Machine
end

