-- ==== Sys2Proof/Machine/Queues.lean ====
section
/-! DEFINITION. Ports, controllers and queues (R61 to R103): doorbells, fetch, posting, interrupts, events, queue creation
and deletion, Abort, controller reset and shutdown. -/

namespace Sys2Proof.Machine

/-! ### Events on one port (R92) -/

/-- Applies `f` to a port. -/
def modPort (p : PortId) (f : HostPort → HostPort) (s : State) : State := setPort s p (f (portOf s p))

/-- An Error event of a port, with information 00h or 01h (R67). -/
def errorEvent (p : PortId) (info : Nat) (s : State) : State := modPort p (queueEvent { typ := 0, info := info, log := 1 }) s

/-- An ANA change notice of a port, when it is enabled (R86, R102). -/
def anaNotice (p : PortId) (s : State) : State :=
  if eventEnabled s 11 then modPort p (queueEvent { typ := 2, info := 3, log := 0x0C }) s else s

/-- An event may be reported now: for type 7h none is reported and unread; for the others none of its type (R92). -/
def reportable (q : HostPort) (e : AsyncEvent) : Bool := !q.unread.any fun u => decide (u.typ = e.typ)

/-- A pending event is reported on an outstanding request, oldest first (R92). -/
def execAsyncEventPost (port : PortId) (s : State) : Out :=
  .next (
    let q := portOf s port
    match q.aers, q.events.find? (reportable q) with
    | h :: hs, some e =>
      let s := setPort s port { q with aers := hs, events := q.events.erase e, unread := q.unread ++ [e] }
      complete h sOk (e.typ + e.info * 256 + e.log * 65536) 0 [] s
    | _, _ => s)

/-- Asynchronous Event Request: at most 16 are outstanding (R75). -/
def execAsynchronousEventRequest (h : Sub) (s : State) : Out :=
  .next (if 16 ≤ (portOf s h.port).aers.length then refuse h (sCmd 0x05) s
    else modPort h.port (fun q => { q with aers := q.aers ++ [h] }) s)

/-! ### Interrupts (R103) -/

/-- Signals a vector, or sets its pending bit while it is masked. -/
def fireVector (v : Vector') : Vector' :=
  if v.masked then { v with pending := true, held := 0 } else { v with pending := false, signals := v.signals + 1, held := 0 }

/-- Applies `f` to a vector of a port. -/
def modVector (p : PortId) (n : Nat) (f : Vector' → Vector') (s : State) : State :=
  modPort p (fun q => { q with vectors := Tab.set q.vectors n (f (Tab.getD q.vectors n {})) }) s

/-- A completion of vector `n`: it is coalesced unless it is vector 0, is excluded, or coalescing is off (R103). -/
def signalVector (p : PortId) (n : Nat) (s : State) : State :=
  let f := s.features
  modVector p n (fun v =>
    if n = 0 ∨ v.cd = true ∨ f.coalTime = 0 ∨ f.coalThr ≤ v.held then fireVector v
    else { v with held := v.held + 1, heldSince := if v.held = 0 then s.datum else v.heldSince }) s

/-- The coalescing time of a vector, in units of 100 µs, has passed since the first completion it holds: they are
signalled (R86, R103). -/
def execCoalescingTimeExpiry (port : PortId) (v : Nat) (s : State) : Out :=
  .next (
    let x := Tab.getD (portOf s port).vectors v {}
    if 0 < x.held ∧ x.heldSince + s.features.coalTime * 10000 ≤ s.datum then modVector port v fireVector s else s)

/-- Unmasks a vector; a pending one is signalled (R103). -/
def unmaskVector (v : Vector') : Vector' :=
  let v := { v with masked := false }
  if v.pending then fireVector v else v

/-- An unmasked vector with its pending bit set is signalled (R103). -/
def execMsixVectorUnmask (port : PortId) (v : Nat) (s : State) : Out :=
  .next (if v < 2048 then modVector port v unmaskVector s else s)

/-! ### Doorbells (R66, R67, R95) -/

/-- A submission queue of a port. -/
def sqOf (s : State) (p : PortId) (q : Nat) : Option SubQueue := Tab.get? (portOf s p).sqs q

/-- A completion queue of a port. -/
def cqOf (s : State) (p : PortId) (q : Nat) : Option ComplQueue := Tab.get? (portOf s p).cqs q

/-- Writes a submission queue. -/
def setSq (p : PortId) (q : Nat) (x : SubQueue) (s : State) : State :=
  modPort p (fun y => { y with sqs := Tab.set y.sqs q x }) s

/-- Writes a completion queue. -/
def setCq (p : PortId) (q : Nat) (x : ComplQueue) (s : State) : State :=
  modPort p (fun y => { y with cqs := Tab.set y.cqs q x }) s

/-- A write of a submission queue tail doorbell (R66, R67). -/
def sqTail (p : PortId) (qid v : Nat) (s : State) : State :=
  match sqOf s p qid with
  | none => errorEvent p 0 s
  | some x =>
    if x.deleting.isSome then errorEvent p 0 s
    else if x.size ≤ v then errorEvent p 1 s
    else
      let n := (v + x.size - x.tail) % x.size
      if n = 0 then s else setSq p qid { x with tail := v, bells := x.bells ++ [(n, s.datum)] } s

/-- A write of a completion queue head doorbell (R66, R67); a head beyond what is posted lies outside the queue's entries
(DEDUCED, assumption 29). -/
def cqHead (p : PortId) (qid v : Nat) (s : State) : State :=
  match cqOf s p qid with
  | none => errorEvent p 0 s
  | some x =>
    let n := (v + x.size - x.head) % max 1 x.size
    if x.size ≤ v ∨ x.entries.length < n then errorEvent p 1 s
    else setCq p qid { x with head := v, entries := x.entries.drop n } s

/-- A submission queue tail doorbell (R66). -/
def execSqTailDoorbell (port : PortId) (qid value : Nat) (s : State) : Out := .next (sqTail port qid value s)

/-- A completion queue head doorbell (R66). -/
def execCqHeadDoorbell (port : PortId) (qid value : Nat) (s : State) : Out := .next (cqHead port qid value s)

/-! ### Fetch (R79 to R81, R461) -/

/-- A queue belongs to the urgent class (R80); the admin queue, to which the spec gives no class, counts as urgent
(DESIGN CHOICE, assumption 129). -/
def urgentQueue (q : HostPort) (x : SubQueue) : Bool := decide (q.ams = 1 ∧ x.prio = 0)

/-- The queue's class has a free place (R79). -/
def placeFree (s : State) (q : HostPort) (x : SubQueue) : Bool :=
  decide (s.held.length < 65536) && (q.ams = 0 || urgentQueue q x || decide (s.held.length < 61440))

/-- Entries of a queue wait for their fetch. -/
def waitsFetch (x : SubQueue) : Bool := !x.bells.isEmpty

/-- The port's controller fetches from this queue now: it is ready, or the queue is a tenant's (R96) with PASID Enable set
(R461); no trip is latched (R481), and no low-power state is being entered or held (R494). -/
def fetchOpen (s : State) (q : HostPort) (qid : Nat) (x : SubQueue) : Bool :=
  s.startup.done && !s.thermal.t3 && !q.cfs
    && (if x.slice = 0 then q.rdy else q.pasidEnable)
    && (decide (qid = 0) || (!enteringLowPower s && decide (s.supply.ps < 3)))

/-- Takes the oldest entry that waits: its doorbell's datum. -/
def takeBell (x : SubQueue) : SubQueue × Nat :=
  match x.bells with
  | [] => (x, 0)
  | (n, d) :: rest => ({ x with bells := if n ≤ 1 then rest else (n - 1, d) :: rest, fetched := x.fetched + 1 }, d)

/-! ### Arbitration (R80) -/

/-- A queue whose next entry may be fetched now. -/
def fetchable (s : State) (q : HostPort) (y : Nat × SubQueue) : Bool :=
  waitsFetch y.2 && placeFree s q y.2 && fetchOpen s q y.1 y.2

/-- Commands in one burst of a queue: 2^AB, and no limit for 111b (R80; the code is the standard's, PRESUMED,
assumption 140). -/
def burstLen (arb : Nat) : Nat := if arb % 8 = 7 then 2 ^ 32 else 2 ^ (arb % 8)

/-- Share of a weighted class in one round: its weight field plus one (R80). -/
def classShare (arb cls : Nat) : Nat :=
  match cls with
  | 1 => bits arb 31 24 + 1
  | 2 => bits arb 23 16 + 1
  | _ => bits arb 15 8 + 1

/-- The queue after `last` in ascending order, wrapping. -/
def roundRobin (last : Nat) (l : List (Nat × SubQueue)) : Option Nat :=
  ((l.find? fun y => decide (last < y.1)).or l.head?).map (·.1)

/-- The next queue of one class: the burst of the present one goes on, else round robin. -/
def nextOf (t : FetchTurn) (cls : Nat) (l : List (Nat × SubQueue)) : Option Nat :=
  if 0 < t.left && l.any (fun y => decide (y.1 = t.cur)) then some t.cur else roundRobin (Tab.getD t.last cls 0) l

/-- The weighted class served next: high, then medium, then low, while it has share left; all shares are renewed when none
of the classes that wait has any. -/
def weightedClass (arb : Nat) (t : FetchTurn) (has : Nat → Bool) : Option (Nat × FetchTurn) :=
  match [1, 2, 3].find? fun c => has c && decide (0 < Tab.getD t.credit c 0) with
  | some c => some (c, t)
  | none => ([1, 2, 3].find? has).map fun c => (c, { t with credit := [1, 2, 3].map fun c => (c, classShare arb c) })

/-- The queue that the controller of a port fetches from next, its class and the turn (R80): the admin queue; under round
robin all queues as one class; else urgent queues, then the weighted classes. Class 4 stands for round robin. -/
def nextFetch (s : State) (q : HostPort) : Option (Nat × Nat × FetchTurn) :=
  let l := (q.sqs.filter (fetchable s q)).filter fun y => decide (y.1 ≠ 0)
  if (q.sqs.filter (fetchable s q)).any fun y => decide (y.1 = 0) then some (0, 0, q.turn)
  else if q.ams = 0 then (nextOf q.turn 4 l).map fun n => (n, 4, q.turn)
  else
    let of := fun c => l.filter fun y => decide (y.2.prio = c)
    match nextOf q.turn 0 (of 0) with
    | some n => some (n, 0, q.turn)
    | none => (weightedClass s.features.arb q.turn fun c => !(of c).isEmpty).bind fun (c, t) =>
        (nextOf t c (of c)).map fun n => (n, c, t)

/-- The turn after one fetch from queue `qid` of a class. -/
def advanceTurn (arb qid cls : Nat) (t : FetchTurn) : FetchTurn :=
  if qid = 0 then t
  else
    { cur := qid
      left := (if 0 < t.left ∧ t.cur = qid then t.left else burstLen arb) - 1
      last := Tab.set t.last cls qid
      credit := Tab.modify t.credit cls fun n => n - 1 }

/-! ### Opcodes (R84, R85, R88, R89) -/

/-- Admin opcodes of R84 and R88. -/
def adminOpcodes : List Nat :=
  [0x00, 0x01, 0x02, 0x04, 0x05, 0x06, 0x08, 0x09, 0x0A, 0x0C, 0x0D, 0x10, 0x11, 0x15, 0x19, 0x1A, 0x80, 0x84,
   0xC1, 0xC4, 0xC5, 0xC6, 0xC8, 0xC9, 0xCC, 0xCD, 0xD1, 0xD4, 0xD5, 0xD8, 0xDD, 0xE1, 0xE4]

/-- I/O opcodes of R85 and R89. -/
def ioOpcodes : List Nat :=
  [0x00, 0x01, 0x02, 0x08, 0x09, 0x0C, 0x81, 0x85, 0x86, 0x8B, 0x8D, 0x91, 0x95, 0x9A]

/-- Features that Set Features may set (R86). -/
def settable : List Nat := [0x01, 0x02, 0x04, 0x07, 0x08, 0x09, 0x0B, 0x0E, 0xC1, 0xC2, 0xC3]

/-- The status of a fetched entry that no command of the device answers: an opcode that is not supported (R84, R85), a
feature that cannot be set (R86), a sanitize action other than block erase and crypto erase (R84). -/
def entryRefusal (qid opcode cdw10 : Nat) : Option Status :=
  if qid ≠ 0 then if ioOpcodes.contains opcode then none else some sOpcode
  else if !adminOpcodes.contains opcode then some sOpcode
  else if opcode = 0x09 ∧ settable.contains (cdw10 % 256) = false then some sField
  else if opcode = 0x84 ∧ cdw10 % 8 ≠ 2 ∧ cdw10 % 8 ≠ 4 then some sField
  else none

/-- The queue manager fetches the entry that arbitration chooses; one of a queue that is being deleted completes with 08h,
and one that no command answers with its status (R79 to R81, R84 to R86, R95). -/
def execCommandFetch (port : PortId) (qid cid opcode cdw10 : Nat) (s : State) : Out :=
  .next (
    let q := portOf s port
    match sqOf s port qid, nextFetch s q with
    | some x, some (n, cls, t) =>
      if n ≠ qid then s
      else
        let (x', d) := takeBell x
        let h : Sub := { port := port, sq := qid, cid := cid }
        let s := setSq port qid x' (setPort s port { q with turn := advanceTurn s.features.arb qid cls t })
        let s := { s with held := s.held ++ [{ h := h, bell := d, urgent := urgentQueue q x }],
                          smart := { s.smart with busyNow := true } }
        if x.deleting.isSome then refuse h sSqDeleted s
        else match entryRefusal qid opcode cdw10 with
          | some st => refuse h st s
          | none => s
    | _, _ => s)

/-! ### Commands in progress (R93, R95) -/

/-- A command is being carried out: its operation, task, key changes or key are under way. -/
def inProgress (s : State) (h : Sub) : Bool :=
  s.writes.any (fun w => decide (w.h = h ∧ w.committed < w.granules.length))
    || s.invs.any (fun v => decide (v.2.h = h))
    || s.tables.any (fun t => t.2.jobs.any fun j => decide (j.h = some h))
    || s.keys.any (fun k => decide (k.2.waitHost = some h))

/-- Ends a Scan: its record is freed (R95, R96). -/
def endScan (abort : Bool) (s : State) (q : ScanOp) : State :=
  let s := freeRecord (q.handle % 65536) (dropScan q s)
  if abort then refuse q.h sSqDeleted s else s

/-- Ends a start that waits for a task: what it reserved returns (R95, R96). -/
def endWaiting (abort : Bool) (s : State) (w : WaitingStart) : State :=
  match w with
  | .invoke x =>
    let s := credit x.inv.slice (x.inv.stagedMib + x.inv.inputMib) (freeRecord (x.inv.handle % 65536) s)
    let s := freeSlotIfDone x.inv.slot s
    if abort then refuse x.inv.h sSqDeleted s else s
  | .scan q _ =>
    let s := freeRecord (q.handle % 65536) (sweepSets s)
    if abort then refuse q.h sSqDeleted s else s

/-- The command of a start that waits. -/
def waitingSub (w : WaitingStart) : Sub :=
  match w with
  | .invoke x => x.inv.h
  | .scan q _ => q.h

/-- Ends the tasks of an invocation with a status, but for those whose release has begun when `spare` holds (R93, R340).
-/
def endFamily (spare : Bool) (st : Nat) (s : State) (i : Nat) : State :=
  (s.tasks.filter fun k => decide (k.2.inv = some i) && !(spare && decide (k.2.phase = .releasing))).foldl
    (fun s k => endTask k.1 st s) s

/-- Ends the Invokes and Scans that satisfy `p`; with 0xFE they complete with 08h (R95, R96, R340). -/
def endInvokes (p : Sub → Bool) (st : Nat) (s : State) : State :=
  let abort := decide (st = 0xFE)
  let gone := s.waitingInvokes.filter fun w => p (waitingSub w)
  let s := { s with waitingInvokes := s.waitingInvokes.filter fun w => !p (waitingSub w) }
  let s := gone.foldl (endWaiting abort) s
  let s := (s.scans.filter fun q => p q.h).foldl (endScan abort) s
  ((s.invs.filter fun v => p v.2.h).map (·.1)).foldl (endFamily abort st) s

/-- Drops operations that satisfy `p` and takes back the links formed for them (R95, R96, R115). -/
def dropWrites (p : WriteOp → Bool) (s : State) : State :=
  let gone := s.writes.filter p
  gone.foldl (fun s w => unform w.nsid w.h s) { s with writes := s.writes.filter fun w => !p w }

/-! ### Creation and deletion of queues (R78, R84, R95, R458) -/

/-- A queue identifier of slice `sl` on a port: a tenant's range, or for slice 0 what no tenant holds, within the count of
Set Features Number of Queues (R78, R453, R458). -/
def qidOk (s : State) (sl : Nat) (p : PortId) (qid : Nat) (sub : Bool) : Bool :=
  let within := fun x : Slice => decide (x.qbase ≤ qid ∧ qid < x.qbase + x.qpairs)
  if sl = 0 then
    let limit := match Tab.get? s.features.queues p.val with
      | some (a, b) => (if sub then a else b) + 1
      | none => 16384
    decide (1 ≤ qid ∧ qid ≤ min 16384 limit) && !((tenants s).any fun x => decide (x.2.port = p.val) && within x.2)
  else within (sliceOf s sl)

/-- A vector of slice `sl` on a port (R453, R458). -/
def vectorOk (s : State) (sl : Nat) (p : PortId) (v : Nat) : Bool :=
  let within := fun x : Slice => decide (x.vbase ≤ v ∧ v < x.vbase + x.vectors)
  if sl = 0 then decide (v < 2048) && !((tenants s).any fun x => decide (x.2.port = p.val) && within x.2)
  else within (sliceOf s sl)

/-- Create I/O Completion Queue for a slice (R78, R84, R458); QSIZE is 0-based. -/
def createCq (h : Sub) (sl : Nat) (p : PortId) (qid size : Nat) (pc ien : Bool) (iv : Nat) (s : State) : State :=
  if !pc then refuse h sField s
  else if !qidOk s sl p qid false || (cqOf s p qid).isSome then refuse h (sCmd 0x01) s
  else if size = 0 ∨ 65535 < size then refuse h (sCmd 0x02) s
  else if !vectorOk s sl p iv then refuse h (sCmd 0x08) s
  else completeOk h (setCq p qid { slice := sl, size := size + 1, vector := iv, ien := ien } s)

/-- Create I/O Submission Queue for a slice (R78, R80, R84, R458). -/
def createSq (h : Sub) (sl : Nat) (p : PortId) (qid size : Nat) (pc : Bool) (prio cqid : Nat) (s : State) : State :=
  if !pc then refuse h sField s
  else if !qidOk s sl p qid true || (sqOf s p qid).isSome then refuse h (sCmd 0x01) s
  else if size = 0 ∨ 65535 < size then refuse h (sCmd 0x02) s
  else if cqid = 0 ∨ ((cqOf s p cqid).map (·.slice)) ≠ some sl then refuse h (sCmd 0x00) s
  else completeOk h (setSq p qid { slice := sl, size := size + 1, prio := prio % 4, cqid := cqid } s)

/-- Create I/O Completion Queue (R78). -/
def execCreateIoCompletionQueue (h : Sub) (qid size : Nat) (pc ien : Bool) (iv : Nat) (s : State) : Out :=
  .next (createCq h 0 h.port qid size pc ien iv s)

/-- Create I/O Submission Queue (R78). -/
def execCreateIoSubmissionQueue (h : Sub) (qid size : Nat) (pc : Bool) (prio cqid : Nat) (s : State) : Out :=
  .next (createSq h 0 h.port qid size pc prio cqid s)

/-- Nothing of a queue is left: no entry, no command held, no completion to post. -/
def queueDrained (s : State) (p : PortId) (qid : Nat) (x : SubQueue) : Bool :=
  let mine := fun h : Sub => decide (h.port = p ∧ h.sq = qid)
  x.bells.isEmpty && !(s.held.any fun c => mine c.h) && !(s.decided.any fun c => mine c.h)

/-- The deletions of a port whose queues have drained complete (R95). -/
def finishDeletes (p : PortId) (s : State) : State :=
  let gone := (portOf s p).sqs.filter fun x => x.2.deleting.isSome && queueDrained s p x.1 x.2
  gone.foldl (fun s x =>
    let s := modPort p (fun y => { y with sqs := Tab.erase y.sqs x.1 }) s
    match x.2.deleting with
    | some (some h) => completeOk h s
    | _ => s) s

/-- Every command of a queue that has not passed its commit point ends with 08h; the tail is final (R95). -/
def closeQueue (p : PortId) (qid : Nat) (by' : Option Sub) (s : State) : State :=
  match sqOf s p qid with
  | none => s
  | some x =>
    let mine := fun h : Sub => decide (h.port = p ∧ h.sq = qid)
    let s := setSq p qid { x with deleting := some by' } s
    let s := dropWrites (fun w => mine w.h && w.task.isNone && decide (w.committed = 0 ∧ w.granules ≠ [])) s
    let s := endInvokes mine 0xFE s
    let open' := s.held.filter fun c => mine c.h && !inProgress s c.h && !(s.decided.any fun d => decide (d.h = c.h))
    finishDeletes p (open'.foldl (fun s c => refuse c.h sSqDeleted s) s)

/-- Delete I/O Submission Queue for a slice (R84, R95, R458). -/
def deleteSq (h : Sub) (sl : Nat) (p : PortId) (qid : Nat) (s : State) : State :=
  match sqOf s p qid with
  | none => refuse h (sCmd 0x01) s
  | some x =>
    if qid = 0 ∨ x.slice ≠ sl ∨ x.deleting.isSome = true then refuse h (sCmd 0x01) s else closeQueue p qid (some h) s

/-- Delete I/O Completion Queue for a slice (R84, R458): not while a submission queue names it. -/
def deleteCq (h : Sub) (sl : Nat) (p : PortId) (qid : Nat) (s : State) : State :=
  match cqOf s p qid with
  | none => refuse h (sCmd 0x01) s
  | some x =>
    if qid = 0 ∨ x.slice ≠ sl then refuse h (sCmd 0x01) s
    else if (portOf s p).sqs.any fun y => decide (y.2.cqid = qid) then refuse h (sCmd 0x0C) s
    else completeOk h (modPort p (fun y => { y with cqs := Tab.erase y.cqs qid }) s)

/-- Delete I/O Submission Queue (R95). -/
def execDeleteIoSubmissionQueue (h : Sub) (qid : Nat) (s : State) : Out := .next (deleteSq h 0 h.port qid s)

/-- Delete I/O Completion Queue (R84). -/
def execDeleteIoCompletionQueue (h : Sub) (qid : Nat) (s : State) : Out := .next (deleteCq h 0 h.port qid s)

/-! ### Posting (R83) -/

/-- The completion queue of a command. -/
def cqidOf (s : State) (h : Sub) : Option Nat := (sqOf s h.port h.sq).map (·.cqid)

/-- Posts the oldest decided completion of a completion queue: it waits while the queue is full (R83). -/
def postCompletion (p : PortId) (cqid : Nat) (s : State) : State :=
  match cqOf s p cqid, s.decided.find? fun c => decide (c.h.port = p) && decide (cqidOf s c.h = some cqid) with
  | some q, some c =>
    let outside := if q.slice = 0 then !(portOf s p).rdy else !(portOf s p).pasidEnable
    if s.thermal.t3 || outside || decide (q.size ≤ q.entries.length + 1) then s
    else
      let s := setCq p cqid { q with entries := q.entries ++ [c] } s
      let s := { s with decided := s.decided.erase c, held := s.held.filter fun x => decide (x.h ≠ c.h) }
      let s := modPort p (fun y => { y with aborts := y.aborts.filter fun x => decide (x ≠ c.h) }) s
      let s := if q.ien then signalVector p q.vector s else s
      finishDeletes p (retryPower (postedWrite c.h s))
  | _, _ => s

/-! ### Abort (R94) -/

/-- Abort completes as not aborted, whatever it names; at most 256 run at one time (R94). -/
def abort (h : Sub) (s : State) : State :=
  if 256 ≤ (portOf s h.port).aborts.length then refuse h (sCmd 0x03) s
  else complete h sOk 1 0 [] (modPort h.port (fun q => { q with aborts := q.aborts ++ [h] }) s)

/-- Abort (R94). -/
def execAbort (h : Sub) (_sq _cid : Nat) (s : State) : Out := .next (abort h s)

/-! ### Controller reset and shutdown (R64, R72, R73, R95 to R97, R102) -/

/-- Forgets commands whose completions cannot be posted any more: what they began goes on without them, and an invocation
whose family still waits for its turns ends as one of a controller reset, with no completion (R93, R96, R368). -/
def forgetCommands (p : Sub → Bool) (s : State) : State :=
  let opt := fun o : Option Sub => o.filter fun h => !p h
  let f := s.book
  { s with
    held := s.held.filter fun c => !p c.h
    turns := s.turns.filter fun t => !p t.h
    decided := s.decided.filter fun c => !p c.h
    tables := s.tables.map fun t => (t.1, { t.2 with jobs := t.2.jobs.map fun j => { j with h := opt j.h } })
    keys := s.keys.map fun k => (k.1, { k.2 with waitHost := opt k.2.waitHost })
    holdUp := { s.holdUp with testers := s.holdUp.testers.filter fun h => !p h }
    book := { f with clearers := f.clearers.filter (fun h => !p h), flushWaiters := f.flushWaiters.filter fun h => !p h }
    base := { s.base with held := s.base.held.filter fun q => match q with
      | .reserve h _ => !p h
      | .power h _ => !p h
      | .exit _ | .ps0 _ => true }
    supply := { s.supply with held := s.supply.held.filter fun q => !p q.1 }
    namespaces := s.namespaces.map fun n => (n.1, { n.2 with
      deleting := n.2.deleting.map opt
      sealing := n.2.sealing.map (fun q => { q with h := opt q.h })
      chain := { n.2.chain with pending := n.2.chain.pending.map fun t => { t with waiter := t.waiter.filter fun w => !p w.1 } } })
    slices := s.slices.map fun x => (x.1, { x.2 with destroyer := opt x.2.destroyer })
    invs := s.invs.map fun v => (v.1, if p v.2.h then { v.2 with rootEnd := some 0xFF } else v.2)
    ports := s.ports.map fun q => (q.1, { q.2 with
      aers := q.2.aers.filter (fun h => !p h)
      aborts := q.2.aborts.filter (fun h => !p h)
      sqs := q.2.sqs.map fun x => (x.1, { x.2 with deleting := x.2.deleting.map opt }) })
    startup := { s.startup with activation := s.startup.activation.map fun a => { a with h := opt a.h } } }

/-- What a controller reset does to the commands that satisfy `p` (R96): uncommitted writes leave the media, tasks end
with 0xFF, digest sessions are abandoned (R440), nothing further is posted. -/
def resetCommands (p : Sub → Bool) (s : State) : State :=
  let s := dropWrites (fun w => p w.h) s
  let s := endInvokes p 0xFF s
  let s := (s.sessions.filter fun q => p q.2.h).foldl (fun s q => closeSession q.1 s) s
  forgetCommands p s

/-- The other controller reports both groups optimized, with a notice (R102). -/
def loseController (p : PortId) (s : State) : State :=
  let o : PortId := if p = 0 then 1 else 0
  let q := portOf s o
  if q.present && !q.anaAlone && s.startup.portMode then
    anaNotice o (setPort s o { q with anaAlone := true, anaChanges := q.anaChanges + 1 })
  else s

/-- The original ANA states return, with a further notice (R102). A controller that is ready for the first time changes
the other's states without a notice (DESIGN CHOICE, assumption 130). -/
def regainController (p : PortId) (s : State) : State :=
  let o : PortId := if p = 0 then 1 else 0
  let q := portOf s o
  if q.present && q.anaAlone then anaNotice o (setPort s o { q with anaAlone := false, anaChanges := q.anaChanges + 1 }) else s

/-- The slot that the controller's next reset activates becomes active (R99, actions 001b and 010b). -/
def activateAtReset (p : PortId) (s : State) : State :=
  let u := s.startup
  match u.pendingReset, u.pending with
  | some q, some slot =>
    if q = p ∧ u.activation.isNone = true then
      writeDirectory { s with startup := { u with active := slot, supActive := slot, pending := none, pendingReset := none } }
    else s
  | _, _ => s

/-- A vector after the queues of its slice are deleted: nothing is held back and nothing pends for them (R96). -/
def quietVector (v : Vector') : Vector' := { v with held := 0, pending := false }

/-- CC.EN is cleared: slice 0's commands, queues and interrupts on the port go; tenant queues continue (R96). The values
of Interrupt Coalescing and of CD stay (DESIGN CHOICE, assumption 132). -/
def disable (p : PortId) (s : State) : State :=
  let q := portOf s p
  if !q.en then s
  else
    let s := resetCommands (fun h => decide (h.port = p) && decide (actSlice s h = 0)) s
    let s := modPort p (fun q => { q with
      en := false, rdy := false, shn := 0, shst := 0
      sqs := q.sqs.filter fun x => decide (x.2.slice ≠ 0)
      cqs := q.cqs.filter fun x => decide (x.2.slice ≠ 0)
      vectors := q.vectors.map fun v => (v.1, if vectorOk s 0 p v.1 then quietVector v.2 else v.2)
      turn := {}
      events := [], unread := [] }) s
    activateAtReset p
      (portPs0 p (loseController p { s with features := { s.features with queues := Tab.erase s.features.queues p.val } }))

/-- A fault of the host link: masked while both ports are attached, else detected (R102, R500). AUX0 is an AER status that
the spec leaves to PCIe: a free value (assumption 30). -/
def linkFault (p : PortId) (both : Bool) (s : State) : State :=
  let e : LogEntry := { level := 3, cls := 0x16, site := chipUnit (10 + p.val), aux0 := freeNat s }
  if both then recordMasked e (drew 1 s) else recordDetected e (drew 1 s)

/-- A reset of R64 acts as a controller reset on slice 0 and on every tenant slice of the port (R64, R96). The MSI-X
table and the PASID capability return to their reset values. -/
def resetPort (p : PortId) (kind : ResetKind) (s : State) : State :=
  if !(portOf s p).present then s
  else
    let both := s.ports.all (fun q => q.2.present && q.2.linkUp) && s.startup.portMode
    let s := resetCommands (fun h => decide (h.port = p)) s
    let q := portOf s p
    let s := setPort s p { present := true, linkUp := q.linkUp && decide (kind ≠ .linkDown), anaAlone := q.anaAlone, anaChanges := q.anaChanges,
                           reqPs := q.reqPs, errorLog := q.errorLog, errorCount := q.errorCount }
    let s := { s with features := { s.features with queues := Tab.erase s.features.queues p.val } }
    let s := activateAtReset p (portPs0 p (loseController p s))
    if kind = .linkDown ∧ q.linkUp = true then linkFault p both s else s

/-- The link of a port comes up. -/
def execLinkUp (port : PortId) (s : State) : Out :=
  .next (if (portOf s port).present then modPort port (fun q => { q with linkUp := true }) s else s)

/-- CC holds values that R72 allows. -/
def ccValid (q : HostPort) : Bool :=
  decide (q.css = 0 ∧ q.mps ≤ 4 ∧ q.ams ≤ 1 ∧ q.iosqes = 6 ∧ q.iocqes = 4)

/-- CSTS.RDY becomes 1 once start-up has completed, when CC.EN was set with valid values (R72, R73): the admin queues
exist from now on. -/
def makeReady (p : PortId) (s : State) : State :=
  let q := portOf s p
  if q.en && !q.rdy && ccValid q && s.startup.done && !s.startup.stopped && !q.cfs then
    regainController p (setPort s p { q with
      rdy := true
      sqs := Tab.set q.sqs 0 { slice := 0, size := bits q.aqa 11 0 + 1 }
      cqs := Tab.set q.cqs 0 { slice := 0, size := bits q.aqa 27 16 + 1 } })
  else s

/-- The fields of a CC write other than EN. -/
def ccFields (cc : Nat) (q : HostPort) : HostPort :=
  { q with css := bits cc 6 4, mps := bits cc 10 7, ams := bits cc 13 11, iosqes := bits cc 19 16, iocqes := bits cc 23 20 }

/-- CC.EN goes from 0 to 1 (R72, R73). -/
def enable (p : PortId) (cc : Nat) (s : State) : State :=
  let q := portOf s p
  if !q.present || q.en then s
  else makeReady p (setPort s p { ccFields cc q with en := true, cfs := q.cfs || s.startup.stopped })

/-- CC.SHN requests a shutdown: a checkpoint is written, and CSTS.SHST becomes 10b (R97). -/
def shutdown (p : PortId) (shn : Nat) (s : State) : State :=
  let q := portOf s p
  if !q.present || (shn ≠ 1 && shn ≠ 2) then s
  else
    let s := checkpoint s
    modPort p (fun q => { q with shn := shn, shst := 2 }) { s with media := { s.media with clean := true } }

/-- CC.EN is set (R73). -/
def execCcEnable (port : PortId) (cc : Word) (s : State) : Out := .next (enable port cc.toNat s)

/-- CC.EN is cleared (R96). -/
def execCcDisable (port : PortId) (s : State) : Out := .next (disable port s)

/-- CC.SHN requests a shutdown (R97). -/
def execCcShutdown (port : PortId) (shn : Nat) (s : State) : Out := .next (shutdown port shn s)

/-- A write of CC: EN, SHN and, while EN is 0 or becomes 1, the other fields. -/
def ccWrite (p : PortId) (cc : Nat) (s : State) : State :=
  let q := portOf s p
  let s := if !q.present then s
    else if bit cc 0 && !q.en then enable p cc s
    else if !bit cc 0 && q.en then setPort (disable p s) p (ccFields cc (portOf (disable p s) p))
    else if !q.en then setPort s p (ccFields cc q)
    else s
  let shn := bits cc 15 14
  if shn ≠ 0 ∧ (portOf s p).shn = 0 then shutdown p shn s else s

/-! ### Register writes (R65 to R72, R103) -/

/-- `n` bytes of `v` at offset `o` replace those of a value. -/
def putBytes (old o n v : Nat) : Nat := old - (old / 2 ^ (8 * o) % 2 ^ (8 * n)) * 2 ^ (8 * o) + v % 2 ^ (8 * n) * 2 ^ (8 * o)

/-- A write to the controller registers below 0x1000 (R71, R72): the rest are read-only or reserved. -/
def controllerWrite (p : PortId) (off size v : Nat) (s : State) : State :=
  let q := portOf s p
  if off = 0x14 then ccWrite p v s
  else if q.en then s
  else if off = 0x24 then setPort s p { q with aqa := v % 2 ^ 32 }
  else if 0x28 ≤ off ∧ off < 0x30 then setPort s p { q with asq := putBytes q.asq (off - 0x28) size v }
  else if 0x30 ≤ off ∧ off < 0x38 then setPort s p { q with acq := putBytes q.acq (off - 0x30) size v }
  else s

/-- One dword of the MSI-X table (R68, R103). -/
def msixDword (p : PortId) (off v : Nat) (s : State) : State :=
  modVector p (off / 16) (fun x =>
    match off % 16 with
    | 0 => { x with addr := x.addr / 2 ^ 32 * 2 ^ 32 + v }
    | 4 => { x with addr := x.addr % 2 ^ 32 + v * 2 ^ 32 }
    | 8 => { x with data := v }
    | _ => if bit v 0 then { x with masked := true } else unmaskVector x) s

end Sys2Proof.Machine
end

