-- ==== Sys2Proof/Machine/Features.lean ====
section
/-! DEFINITION. Set Features and Get Features (R86, R104, R252, R271, R475, R487, R493). -/

namespace Sys2Proof.Machine

/-- Changes the features. -/
def modFeatures (f : Features → Features) (s : State) : State := { s with features := f s.features }

/-- Feature Identifier Not Saveable: a feature of R86 that is not saveable was to be saved. -/
def sNotSaveable : Status := sCmd 0x0D

/-- A Set Features of a feature that cannot be saved. -/
def unsaveable (h : Sub) (save : Bool) (f : State → State) (s : State) : State :=
  if save then refuse h sNotSaveable s else f s

/-! ### Set Features -/

/-- Arbitration (R80): Dword 11 as the standard lays it out. -/
def execSetFeaturesArbitration (h : Sub) (save : Bool) (ab lpw mpw hpw : Nat) (s : State) : Out :=
  .next (
    let v := ab % 8 + lpw % 256 * 2 ^ 8 + mpw % 256 * 2 ^ 16 + hpw % 256 * 2 ^ 24
    completeOk h (modFeatures (fun f => { f with arb := v, arbSaved := if save then some v else f.arbSaved }) s))

/-- Power Management (R86, R493): a workload hint is not supported. -/
def execSetFeaturesPowerManagement (h : Sub) (save : Bool) (ps wh : Nat) (s : State) : Out :=
  .next (unsaveable h save (fun s => if 4 < ps ∨ wh ≠ 0 then refuse h sField s else powerRequest h ps s) s)

/-- Temperature Threshold (R487). -/
def execSetFeaturesTemperatureThreshold (h : Sub) (save : Bool) (tmpsel thsel tmpth : Nat) (s : State) : Out :=
  .next (
    if 8 < tmpsel ∨ 1 < thsel ∨ tmpth < 200 ∨ 420 < tmpth then refuse h sField s
    else
      let k := 2 * tmpsel + thsel
      completeOk h (modFeatures (fun f => { f with
        thresholds := Tab.set f.thresholds k tmpth
        thresholdsSaved := if save then Tab.set f.thresholdsSaved k tmpth else f.thresholdsSaved }) s))

/-- An I/O queue of a slice exists on a port. -/
def ioQueues (s : State) (p : PortId) (sl : Nat) : Bool :=
  (portOf s p).sqs.any (fun x => decide (x.1 ≠ 0 ∧ x.2.slice = sl))
    || (portOf s p).cqs.any (fun x => decide (x.1 ≠ 0 ∧ x.2.slice = sl))

/-- Number of Queues (R78): 0-based counts, at most 16,383; FFFFh is not valid, and no I/O queue may exist. -/
def execSetFeaturesNumberOfQueues (h : Sub) (save : Bool) (nsq ncq : Nat) (s : State) : Out :=
  .next (unsaveable h save (fun s =>
    if 65535 ≤ nsq ∨ 65535 ≤ ncq then refuse h sField s
    else if ioQueues s h.port 0 then refuse h { sct := 0, sc := 0x0C } s
    else
      let a := min nsq 16383
      let b := min ncq 16383
      complete h sOk (a + b * 65536) 0 [] (modFeatures (fun f => { f with queues := Tab.set f.queues h.port.val (a, b) }) s)) s)

/-- Interrupt Coalescing (R103): one setting for both controllers (DESIGN CHOICE, assumption 131). -/
def setCoalescing (h : Sub) (save : Bool) (time thr : Nat) (s : State) : State :=
  if 256 ≤ time ∨ 256 ≤ thr then refuse h sField s
  else completeOk h (modFeatures (fun f => { f with
    coalTime := time, coalThr := thr, coalSaved := if save then some (time, thr) else f.coalSaved }) s)

/-- Interrupt Coalescing (R103). -/
def execSetFeaturesInterruptCoalescing (h : Sub) (save : Bool) (time thr : Nat) (s : State) : Out :=
  .next (setCoalescing h save time thr s)

/-- Interrupt Vector Configuration of a slice (R103, R458): vectors 0 to 2047, a tenant's own. -/
def setVectorConfig (h : Sub) (sl : Nat) (p : PortId) (iv : Nat) (cd : Bool) (s : State) : State :=
  if 2048 ≤ iv ∨ (sl ≠ 0 ∧ vectorOk s sl p iv = false) then refuse h sField s
  else completeOk h (modVector p iv (fun v => { v with cd := cd }) s)

/-- Interrupt Vector Configuration (R103). -/
def execSetFeaturesInterruptVectorConfig (h : Sub) (save : Bool) (iv : Nat) (cd : Bool) (s : State) : Out :=
  .next (unsaveable h save (setVectorConfig h 0 h.port iv cd) s)

/-- Asynchronous Event Configuration (R86): bits 4:0, 8, 9 and 11 are kept. -/
def execSetFeaturesAsyncEventConfig (h : Sub) (save : Bool) (v : Word) (s : State) : Out :=
  .next (
    let x := v &&& 0x0B1F#32
    completeOk h (modFeatures (fun f => { f with asyncCfg := x, asyncSaved := if save then some x else f.asyncSaved }) s))

/-- Timestamp (R104): the host's 48-bit value with the datum of this moment; one value for both controllers (DESIGN
CHOICE, assumption 133). -/
def execSetFeaturesTimestamp (h : Sub) (save : Bool) (ms : Nat) (s : State) : Out :=
  .next (unsaveable h save (fun s =>
    completeOk h (modFeatures (fun f => { f with tsMs := ms % 2 ^ 48, tsDatum := s.datum, tsOrigin := 1 }) s)) s)

/-- Thermal Grace Time (R475): a grace that runs takes the new value. -/
def execSetFeaturesThermalGraceTime (h : Sub) (save : Bool) (v : Word) (s : State) : Out :=
  .next (
    let n := v.toNat
    if n < 5 ∨ 100 < n then refuse h sField s
    else completeOk h (modFeatures (fun f => { f with grace := n, graceSaved := if save then some n else f.graceSaved }) s))

/-- Interleave Grain (R252): recorded for the next start-up. -/
def execSetFeaturesInterleaveGrain (h : Sub) (save : Bool) (v : Word) (s : State) : Out :=
  .next (unsaveable h save (fun s =>
    let n := v.toNat
    if n < 8 ∨ 16 < n then refuse h sField s else completeOk h (modFeatures (fun f => { f with grainNext := n }) s)) s)

/-- Scrub Period (R271): in force at once. -/
def execSetFeaturesScrubPeriod (h : Sub) (save : Bool) (v : Word) (s : State) : Out :=
  .next (
    let n := v.toNat
    if n < 1 ∨ 168 < n then refuse h sField s
    else completeOk h (modFeatures (fun f => { f with scrub := n, scrubSaved := if save then some n else f.scrubSaved }) s))

/-! ### Get Features -/

/-- Timestamp as it reads: the stored value plus the elapsed milliseconds (R104). -/
def timestampNow (s : State) : Nat := (s.features.tsMs + (s.datum - s.features.tsDatum) / 100000) % 2 ^ 48

/-- A value by SEL: 0 current, 1 default, 2 saved. -/
def bySel (sel cur dflt : Nat) (saved : Option Nat) : Nat :=
  match sel with
  | 0 => cur
  | 1 => dflt
  | _ => saved.getD dflt

/-- The feature may be saved (R86). -/
def saveable (fid : Nat) : Bool := [0x01, 0x04, 0x08, 0x0B, 0xC1, 0xC3].contains fid

/-- A feature that R86 supports. -/
def featureKnown (fid : Nat) : Bool := settable.contains fid

/-- Temperature Threshold as Dword 0. -/
def thresholdDw0 (f : Features) (sel v : Nat) : Option Nat :=
  let ts := bits v 19 16
  let th := bits v 21 20
  if 8 < ts ∨ 1 < th then none
  else
    let d := if th = 0 then 378 else 233
    let k := 2 * ts + th
    some (bySel sel (Tab.getD f.thresholds k d) d (Tab.get? f.thresholdsSaved k) + ts * 2 ^ 16 + th * 2 ^ 20)

/-- Number of Queues as Dword 0; a tenant slice sees QPAIRS - 1 for both counts (R458). -/
def queuesDw0 (s : State) (sl : Nat) (p : PortId) : Nat :=
  if sl = 0 then
    let q := Tab.getD s.features.queues p.val (16383, 16383)
    q.1 + q.2 * 65536
  else ((sliceOf s sl).qpairs - 1) * 65537

/-- Dword 0 and data of Get Features; none where a field is not valid (R86, R104, R252). -/
def featureValue (s : State) (sl : Nat) (p : PortId) (fid sel v : Nat) : Option (Nat × List Byte) :=
  let f := s.features
  match fid with
  | 0x01 => some (bySel sel f.arb 0 f.arbSaved, [])
  | 0x02 => some (if sel = 0 then (portOf s p).reqPs else 0, [])
  | 0x04 => (thresholdDw0 f sel v).map fun x => (x, [])
  | 0x07 => some (queuesDw0 s sl p, [])
  | 0x08 => some (bySel sel (f.coalThr + f.coalTime * 256) 0 (f.coalSaved.map fun x => x.2 + x.1 * 256), [])
  | 0x09 =>
    let iv := v % 65536
    if 2048 ≤ iv ∨ (sl ≠ 0 ∧ vectorOk s sl p iv = false) then none
    else some (iv + flagBit (sel = 0 && (Tab.getD (portOf s p).vectors iv {}).cd) 16, [])
  | 0x0B => some (bySel sel f.asyncCfg.toNat 0x0B1F (f.asyncSaved.map (·.toNat)), [])
  | 0x0E => some (0, toLe 6 (timestampNow s) ++ toLe 1 (f.tsOrigin * 2) ++ [0])
  | 0xC1 => some (bySel sel f.grace 20 f.graceSaved, [])
  | 0xC2 => some (if sel = 0 then f.grainNext * 256 + f.grainInUse else 12 * 256 + 12, [])
  | 0xC3 => some (bySel sel f.scrub 24 f.scrubSaved, [])
  | _ => none

/-- Get Features of a slice (R86, R458); SEL 3 reports what may be done with the feature. -/
def getFeatures (h : Sub) (sl : Nat) (p : PortId) (fid sel v : Nat) (s : State) : State :=
  if featureKnown fid = false ∨ 3 < sel then refuse h sField s
  else if sel = 3 then complete h sOk (flagBit (saveable fid) 0 + 4) 0 [] s
  else match featureValue s sl p fid sel v with
    | some (x, bs) => complete h sOk x 0 bs s
    | none => refuse h sField s

/-- Get Features (R86). -/
def execGetFeatures (h : Sub) (fid sel v : Nat) (s : State) : Out := .next (getFeatures h 0 h.port fid sel v s)

end Sys2Proof.Machine
end

