-- ==== Sys2Proof/Machine/Namespaces.lean ====
section
/-! DEFINITION. Namespace Management and Attachment (R84, R101, R147, R196, R588), Format NVM and Sanitize (R150, R153,
R174, R175), and the Identify and Streams directives (R84, R139, R141). -/

namespace Sys2Proof.Machine

/-! ### Namespace Management: create (R147, R148, R153, R196) -/

/-- A free namespace identifier from 1 to 1,024: which one the spec leaves open (assumption 10). -/
def freeNsid (s : State) : Option Nat :=
  let i := freeNat s % 1024 + 1
  (Tab.lowestFree s.namespaces i (1025 - i)).or (Tab.lowestFree s.namespaces 1 (i - 1))

/-- The ANA group of a namespace: for ANAGRPID 0, 1 for odd identifiers and 2 for even ones (R101). -/
def anaGroup (nsid anagrp : Nat) : Nat := if anagrp = 0 then (if nsid % 2 = 1 then 1 else 2) else anagrp

/-- A vendor attribute of R77 in the data of a create, by its bit of byte 3072 (R147). SEALED and SLICE are ignored, and
so are reserved bits (R9). -/
def vendorBit (p : NsParams) (b : Nat) : Bool := bit (field p.vendor 0 1) b

/-- The namespace that create parameters describe, unattached: EVID, XTS and PAR2 come from byte 3072 (R77, R147, R196).
-/
def newNamespace (sl nsid : Nat) (p : NsParams) (nguid : List Byte) : Namespace :=
  { nsze := p.nsze, ncap := p.ncap, lbaf := p.flbas % 16, evid := vendorBit p 0, xts := vendorBit p 1, par2 := vendorBit p 3,
    slice := sl, anagrp := anaGroup nsid p.anagrp, nguid := nguid }

/-- Raises the namespace attribute notice, when it is enabled (R75, R86). -/
def nsNotice (s : State) : State := notice 8 0 4 s

/-- Namespace Management create for a slice. -/
def nsCreate (h : Sub) (sl : Nat) (p : NsParams) (s : State) : State :=
  if p.nsze = 0 ∨ 2 < p.anagrp then refuse h sField s
  else if 1 < p.flbas % 16 then refuse h (sCmd 0x0A) s
  else if p.nsze ≠ p.ncap then refuse h (sCmd 0x1B) s
  else if s.media.readOnly then refuse h (sCmd 0x15) s
  else match freeNsid s with
    | none => refuse h (sCmd 0x16) s
    | some nsid =>
      let n := newNamespace sl nsid p (fit 16 (Config.nguid s.nsMade))
      if capFree s sl < nsCharge n then refuse h sField s
      else
        let keyed : Option (Namespace × State) :=
          if n.xts then (freeKeySlot s).map fun i =>
            let (key, s) := xtsKey (drew 1 s)
            ({ n with keySlot := some i }, writeKey i .xts sl key s)
          else some (n, drew 1 s)
        match keyed with
        | none => refuse h sField s
        | some (n, s) =>
          let s := journalPut (.nsChange nsid n.par2 .create) (setNs nsid n { s with nsMade := s.nsMade + 1 })
          complete h sOk nsid 0 [] (if n.evid then genesisLink nsid false s else s)

/-- Namespace Management create (R147). -/
def execNamespaceCreate (h : Sub) (p : NsParams) (s : State) : Out := .next (nsCreate h 0 p s)

/-! ### Namespace Management: delete (R174, R588) -/

/-- The namespace identifiers that a command of slice `sl` names: one that the slice may manage, or with FFFFFFFFh all of
them. -/
def nsScope (s : State) (sl nsid : Nat) : Option (List Nat) :=
  if nsid = 0xFFFFFFFF then
    some ((s.namespaces.filter fun n => (decide (sl = 0) || decide (n.2.slice = sl)) && n.2.deleting.isNone).map (·.1))
  else match nsOf s nsid with
    | some n => if (sl = 0 ∨ n.slice = sl) ∧ n.deleting.isNone = true then some [nsid] else none
    | none => none

/-- A namespace of the scope holds a seal (R174). -/
def anySealed (s : State) (l : List Nat) : Bool := l.any fun i => ((nsOf s i).map fun n => !n.seals.isEmpty).getD false

/-- A seal or unseal of a namespace of the scope is not complete, so that the next command waits its turn (R169, R170). -/
def sealsInProgress (s : State) (l : List Nat) : Bool :=
  l.any fun i => ((nsOf s i).map fun n => !n.sealing.isEmpty || n.seals.any (fun e => !e.complete)
    || n.chain.pending.any fun t => t.waiter.isSome).getD false

/-- Commands dispatched to a namespace have not completed: writes past stage 2, LBA outputs of a release that has begun,
and Scans (R588). -/
def nsInUse (s : State) (nsid : Nat) : Bool :=
  (s.writes.any fun w => decide (w.nsid = nsid) && (w.checked || w.task.isSome)) || s.scans.any fun q => decide (q.nsid = nsid)

/-- An Extent Seal of a namespace of the scope waits for its turn. -/
def sealWaits (s : State) (l : List Nat) : Bool :=
  s.turns.any fun t => match t.cmd with
    | .sealing nsid _ => l.contains nsid
    | _ => false

/-- Namespace Management delete for a slice, in its turn: refused when sealed, else it waits for the effect (R174,
R588). -/
def deleteNow (h : Sub) (sl nsid : Nat) (s : State) : State :=
  match nsScope s sl nsid with
  | none => refuse h sNamespace s
  | some l =>
    if anySealed s l then refuse h (sVendor 0x80) s
    else if l.isEmpty then completeOk h s
    else l.foldl (fun s i => modNs i (fun n => { n with deleting := some (some h) }) s) s

/-- The map pages of a namespace go, and what waits for its units. -/
def dropUnits (nsid : Nat) (m : Media) : Media :=
  { m with
    pages := m.pages.filter fun p => decide (p.1 / 2 ^ 32 ≠ nsid)
    relocate := m.relocate.filter fun r => decide (r.1 ≠ nsid)
    answered := m.answered.filter fun a => decide (a.1 ≠ nsid) }

/-- Everything a namespace holds goes: its lines, map pages, key, reservations and link records (R139, R157, R443). -/
def removeNamespace (nsid : Nat) (n : Namespace) (s : State) : State :=
  let m := s.media
  let s := match n.keySlot with
    | some i => eraseKey i s
    | none => s
  let s := { s with
    namespaces := Tab.erase s.namespaces nsid
    lines := s.lines.filter fun l => decide (l.nsid ≠ nsid)
    media := dropUnits nsid m }
  journalPut (.nsChange nsid n.par2 .delete) (endResvs (fun r => decide (r.nsid = nsid)) s)

/-- The deletion takes effect once every earlier command has completed; the command completes with the last namespace it
names (R588). -/
def nsDeleteEffect (nsid : Nat) (s : State) : State :=
  match nsOf s nsid with
  | none => s
  | some n =>
    match n.deleting with
    | none => s
    | some by' =>
      if nsInUse s nsid then s
      else
        let s := nsNotice (removeNamespace nsid n s)
        match by' with
        | none => s
        | some h =>
          if s.namespaces.any fun x => decide (x.2.deleting = some (some h)) then s else completeOk h s

/-! ### Namespace Attachment (R61, R84, R458) -/

/-- The controllers that a slice may attach to: those present, and for a tenant its port's only (R61, R458). -/
def ctrlsOf (s : State) (sl : Nat) : List Nat :=
  ((s.ports.filter fun p => p.2.present && (decide (sl = 0) || decide (p.1 = (sliceOf s sl).port))).map fun p => p.1 + 1)

/-- A controller list is valid: not empty, ascending, of controllers that the slice may name. -/
def ctrlListOk (s : State) (sl : Nat) (l : List Nat) : Bool :=
  !l.isEmpty && (l.zip (l.drop 1)).all (fun p => decide (p.1 < p.2)) && l.all fun c => (ctrlsOf s sl).contains c

/-- Namespace Attachment for a slice: attach, or detach. -/
def nsAttach (on : Bool) (h : Sub) (sl nsid : Nat) (ctrls : List Nat) (s : State) : State :=
  match (if nsid = 0xFFFFFFFF then none else nsScope s sl nsid), nsOf s nsid with
  | some _, some n =>
    if !ctrlListOk s sl ctrls then refuse h (sCmd 0x1C) s
    else if on && ctrls.any n.ctrls.contains then refuse h (sCmd 0x18) s
    else if !on && !ctrls.all n.ctrls.contains then refuse h (sCmd 0x1A) s
    else
      let l := if on then n.ctrls ++ ctrls else n.ctrls.filter fun c => !ctrls.contains c
      completeOk h (nsNotice (journalPut (.nsChange nsid n.par2 .altered) (setNs nsid { n with ctrls := l } s)))
  | _, _ => refuse h sNamespace s

/-- Namespace Attachment, attach (R84). -/
def execNamespaceAttach (h : Sub) (nsid : Nat) (ctrls : List Nat) (s : State) : Out :=
  .next (nsAttach true h 0 nsid ctrls s)

/-- Namespace Attachment, detach (R84). -/
def execNamespaceDetach (h : Sub) (nsid : Nat) (ctrls : List Nat) (s : State) : Out :=
  .next (nsAttach false h 0 nsid ctrls s)

/-! ### Format NVM and Sanitize (R150, R153, R174, R175, R196) -/

/-- A namespace whose user data is gone: nothing is stored, mapped or poisoned (R184, R214). -/
def clearedNs (n : Namespace) : Namespace := { n with blocks := [], map := [], poison := [], streams := [] }

/-- Clears a namespace's content, lines and map pages. -/
def clearNs (nsid : Nat) (f : Namespace → Namespace) (s : State) : State :=
  let m := s.media
  let s := { s with
    lines := s.lines.filter fun l => decide (l.nsid ≠ nsid)
    media := dropUnits nsid m }
  modNs nsid (fun n => f (clearedNs n)) s

/-- A new XTS key replaces the old one (R150). -/
def replaceXts (n : Namespace) (s : State) : State :=
  match n.keySlot with
  | some i =>
    let (key, s) := xtsKey s
    writeKey i .xts n.slice key s
  | none => s

/-- Erases one namespace: kind 2 monument first, seals removed, content and key replaced, reservations ended, epoch link
last (R139, R150, R153, R175). -/
def wipeNs (change : NsChange) (rekey : Bool) (f : Namespace → Namespace) (s : State) (nsid : Nat) : State :=
  match nsOf s nsid with
  | none => s
  | some n =>
    let s := if n.evid then
        writeAllMonuments nsid (trigger nsid 2 (headLseq n.chain) (headOf n.chain) 0 0 (zeros 32) none s)
      else s
    let s := clearNs nsid f (removeSeals nsid s)
    let s := if rekey && n.xts then replaceXts n s else s
    let s := journalPut (.nsChange nsid (f n).par2 change) (endResvs (fun r => decide (r.nsid = nsid)) s)
    if n.evid then genesisLink nsid true s else s

/-- A namespace after its format: LBA format and parity mode; its capacity in bytes stays (assumption 32). -/
def formatted (lbaf parity : Nat) (n : Namespace) : Namespace :=
  let cap := n.ncap * blockBytes n
  let n := { n with lbaf := lbaf, par2 := if parity = 1 then false else if parity = 2 then true else n.par2 }
  { n with nsze := cap / blockBytes n, ncap := cap / blockBytes n }

/-- The charges that a format adds over its scope (R196). -/
def formatAdds (s : State) (parity : Nat) (l : List Nat) : Nat :=
  if parity ≠ 2 then 0
  else (l.map fun i => ((nsOf s i).map fun n => nsCharge { n with par2 := true } - nsCharge n).getD 0).sum

/-- Format NVM for a slice, in its turn; LBAF 0 or 1, SES 0 to 2 and PARITY 0 to 2 (R76, R84, R196). -/
def formatNow (h : Sub) (sl nsid lbaf ses parity : Nat) (s : State) : State :=
  match nsScope s sl nsid with
  | none => refuse h sNamespace s
  | some l =>
    if 1 < lbaf then refuse h (sCmd 0x0A) s
    else if 2 < ses ∨ 2 < parity ∨ capFree s sl < formatAdds s parity l then refuse h sField s
    else if anySealed s l && !windowOpen s then refuse h (sVendor 0x85) s
    else
      let s := if anySealed s l then usePrivileged 5 s else s
      let changes := parity ≠ 0 ∧
        (l.any fun i => ((nsOf s i).map fun n => decide (n.par2 ≠ decide (parity = 2))).getD false) = true
      let s := nsNotice (l.foldl (wipeNs .format (decide (1 ≤ ses)) (formatted lbaf parity)) s)
      completeOk h (if changes then baselineTrigger 4 s else s)

/-- Sanitize, in its turn: every namespace is erased and every XTS key replaced, in its present format and parity (R150,
R174). -/
def sanitizeNow (h : Sub) (action : Nat) (s : State) : State :=
  let l := s.namespaces.map (·.1)
  if anySealed s l && !windowOpen s then refuse h (sVendor 0x85) s
  else
    let s := if anySealed s l then usePrivileged 5 s else s
    let s := l.foldl (wipeNs .sanitize true id) s
    let m := s.media
    completeOk h { s with media := { m with sanAction := action, written := false } }

/-! ### Turns (R169) -/

/-- The namespaces that a command concerns. -/
def turnScope (s : State) (t : NsTurn) : List Nat :=
  match t.cmd with
  | .sealing nsid _ | .unsealing nsid _ _ => [nsid]
  | .format nsid _ _ _ | .delete nsid => if nsid = 0xFFFFFFFF then (nsScope s t.slice nsid).getD [] else [nsid]
  | .sanitize _ => s.namespaces.map (·.1)

/-- A command that erases waits for the commands under way and the deletions of its namespaces (DESIGN CHOICE,
assumption 148). -/
def erasesBusy (s : State) (t : NsTurn) : Bool :=
  match t.cmd with
  | .format _ _ _ _ => (turnScope s t).any (nsInUse s)
  | .sanitize _ => (turnScope s t).any fun i => nsInUse s i || (nsOf s i).any fun n => n.deleting.isSome
  | _ => false

/-- A command waits while an earlier one that concerns one of its namespaces waits or runs (R169). -/
def turnWaits (s : State) (t : NsTurn) : Bool :=
  (s.turns.any fun u => (turnScope s u).any (turnScope s t).contains) || sealsInProgress s (turnScope s t) || erasesBusy s t

/-- A command takes effect. -/
def runTurn (t : NsTurn) (s : State) : State :=
  match t.cmd with
  | .sealing nsid data => sealNow t.h t.slice nsid data s
  | .unsealing nsid data rechecks => unsealNow t.h nsid data rechecks s
  | .format nsid lbaf ses parity => formatNow t.h t.slice nsid lbaf ses parity s
  | .sanitize action => sanitizeNow t.h action s
  | .delete nsid => deleteNow t.h t.slice nsid s

/-- A command takes effect, or waits for its turn. -/
def enterTurn (s : State) (t : NsTurn) : State :=
  if turnWaits s t then { s with turns := s.turns ++ [t] } else runTurn t s

/-- Every command whose turn has come takes effect, in order of receipt (R169). -/
def nextTurns (s : State) : State := s.turns.foldl enterTurn { s with turns := [] }

/-- Extent Seal for a slice (R169). -/
def extentSeal (h : Sub) (sl nsid : Nat) (data : List Byte) (s : State) : State :=
  enterTurn s { h := h, slice := sl, cmd := .sealing nsid data }

/-- Format NVM for a slice (R169). -/
def nsFormat (h : Sub) (sl nsid lbaf ses parity : Nat) (s : State) : State :=
  enterTurn s { h := h, slice := sl, cmd := .format nsid lbaf ses parity }

/-- Namespace Management delete for a slice (R169). -/
def nsDelete (h : Sub) (sl nsid : Nat) (s : State) : State := enterTurn s { h := h, slice := sl, cmd := .delete nsid }

/-- Extent Seal (R169). -/
def execExtentSeal (h : Sub) (nsid : Nat) (_d : Cdw) (data : List Byte) (s : State) : Out :=
  .next (extentSeal h (actSlice s h) nsid data s)

/-- Extent Unseal (R169, R176): `rechecks` is what reading the partly unsealed units finds (R172). -/
def execExtentUnseal (h : Sub) (nsid : Nat) (_d : Cdw) (data : List Byte) (rechecks : List (Nat × Bool)) (s : State) :
    Out :=
  .next (enterTurn s { h := h, slice := 0, cmd := .unsealing nsid data rechecks })

/-- The manifest of the oldest seal that has none is complete (R170, R172). -/
def execSealManifestComplete (nsid : Nat) (s : State) : Out := .next (nextTurns (sealManifest nsid s))

/-- The oldest pending monument of a namespace is signed and written, or its engine faults (R159). -/
def execMonumentWrite (nsid : Nat) (engineFault : Bool) (s : State) : Out := .next (nextTurns (monumentWrite nsid engineFault s))

/-- Namespace Management delete (R588). -/
def execNamespaceDelete (h : Sub) (nsid : Nat) (s : State) : Out := .next (nsDelete h 0 nsid s)

/-- Format NVM (R84). -/
def execFormatNvm (h : Sub) (nsid lbaf ses parity : Nat) (s : State) : Out := .next (nsFormat h 0 nsid lbaf ses parity s)

/-- Sanitize, block erase (R84, R150). -/
def execSanitizeBlockErase (h : Sub) (s : State) : Out :=
  .next (enterTurn s { h := h, slice := 0, cmd := .sanitize 2 })

/-- Sanitize, crypto erase (R84, R150). -/
def execSanitizeCryptoErase (h : Sub) (s : State) : Out :=
  .next (enterTurn s { h := h, slice := 0, cmd := .sanitize 4 })

/-! ### Directives (R84, R139, R141) -/

/-- Directive Send: Identify enables or disables Streams (`v` bit 0, type in bits 15:8); Streams releases an identifier,
but not a reserved one (R139), or the namespace's resources. Any other type or operation is invalid (R84). -/
def execDirectiveSend (h : Sub) (nsid dtype doper dspec : Nat) (v : Word) (s : State) : Out :=
  .next (match nsForIo s h nsid with
    | none => refuse h sNamespace s
    | some n =>
      match dtype, doper with
      | 0, 1 =>
        if bits v.toNat 15 8 = 1 then completeOk h (setNs nsid { n with streamsEnabled := v.getLsbD 0 } s) else refuse h sField s
      | 1, 1 =>
        if (resvOf s nsid (dspec % 65536)).isSome then refuse h sField s
        else completeOk h (setNs nsid { n with streams := n.streams.filter fun i => decide (i ≠ dspec % 65536) } s)
      | 1, 2 => completeOk h (setNs nsid { n with streamsAlloc := 0 } s)
      | _, _ => refuse h sField s)

/-- Return Parameters of the Identify directive: Identify and Streams are supported; Identify is always enabled. -/
def identifyDirective (n : Namespace) : List Byte :=
  layout 4096 [(0, [3]), (32, toLe 1 (1 + flagBit n.streamsEnabled 1))]

/-- Return Parameters of the Streams directive (R141). -/
def streamsParameters (s : State) (n : Namespace) : List Byte :=
  let opened := (s.namespaces.map fun x => x.2.streams.length).sum
  layout 32 [(0, toLe 2 4096), (2, toLe 2 4096), (4, toLe 2 opened), (16, toLe 4 (if n.lbaf = 0 then 32 else 4)),
    (20, toLe 2 (if n.par2 then 30 else 31)), (22, toLe 2 n.streamsAlloc), (24, toLe 2 n.streams.length)]

/-- Directive Receive: parameters of Identify and of Streams, status of Streams, and its allocation (R84, R141). -/
def execDirectiveReceive (h : Sub) (nsid dtype doper _dspec nsr : Nat) (s : State) : Out :=
  .next (match nsForIo s h nsid with
    | none => refuse h sNamespace s
    | some n =>
      match dtype, doper with
      | 0, 1 => complete h sOk 0 0 (identifyDirective n) s
      | 1, 1 => complete h sOk 0 0 (streamsParameters s n) s
      | 1, 2 => complete h sOk 0 0 (toLe 2 n.streams.length ++ n.streams.flatMap (toLe 2)) s
      | 1, 3 =>
        let k := min nsr 4096
        complete h sOk k 0 [] (setNs nsid { n with streamsAlloc := k } s)
      | _, _ => refuse h sField s)

end Sys2Proof.Machine
end

