-- ==== Sys2Proof/Machine/Firmware.lean ====
section
/-! DEFINITION. Firmware: packages and slots (R543 to R546), download and commit (R84, R99), and rolling activation (R523
to R525). -/

namespace Sys2Proof.Machine

/-! ### Packages (R545) -/

/-- Changes the boot state. -/
def modStartup (f : Startup → Startup) (s : State) : State := { s with startup := f s.startup }

/-- TOTAL_LEN. -/
def pkgTotal (b : List Byte) : Nat := field b 8 4

/-- A section entry: it lies within the package after the header, and its digest is correct (R545). -/
def sectionOk (b : List Byte) (k : Nat) : Bool :=
  let o := 64 + 64 * k
  let off := field b o 4
  let len := field b (o + 4) 4
  decide (512 ≤ off ∧ off + len ≤ pkgTotal b) && zeroAt b (o + 8) 8
    && decide (digest 1 (slice b off len) = slice b (o + 16) 48)

/-- A package is valid (R545): MAGIC, FORMAT, FLAGS, lengths, version, reserved fields, sections and signature. -/
def packageOk (b : List Byte) : Bool :=
  decide (field b 0 4 = 0x57464E59 ∧ field b 4 2 = 1 ∧ field b 6 2 < 2)
    && decide (512 ≤ pkgTotal b ∧ pkgTotal b ≤ (norArea (.slot 2)).2 ∧ pkgTotal b ≤ b.length)
    && (slice b 12 8).all (fun c => decide (0x20 ≤ c.toNat ∧ c.toNat < 0x7F))
    && decide (field b 24 1 < 128) && zeroAt b 25 3 && zeroAt b 32 32 && zeroAt b 352 160
    && decide (field b 68 4 ≤ 1048576)
    && (List.range 3).all (sectionOk b)
    && Config.firmwareSigOk (digest 1 (b.take 256)) (slice b 256 96)

/-- The slot that a package fills. -/
def slotOf (b : List Byte) : FwSlot :=
  { valid := true, fr := slice b 12 8, build := field b 20 4, secver := field b 24 1, compatMin := field b 28 4,
    raise := bit (field b 6 2) 0 }

/-- A firmware slot. -/
def fwSlot (s : State) (i : Nat) : FwSlot := Tab.getD s.startup.slots i {}

/-! ### Download and commit (R84, R99) -/

/-- Firmware Image Download: parts are aligned to 4 KiB, and the image is at most 16 MiB (R84). -/
def execFirmwareImageDownload (h : Sub) (off : Nat) (data : List Byte) (s : State) : Out :=
  .next (
    let n := data.length
    if off % 4096 ≠ 0 ∨ n % 4096 ≠ 0 ∨ n = 0 ∨ (norArea (.slot 2)).2 < off + n then refuse h sField s
    else completeOk h (modStartup (fun u =>
      { u with download := u.download.writeBytes off data, downloadLen := max u.downloadLen (off + n) }) s))

/-- What a commit puts into its slot: the downloaded image when there is one and it is wanted, else the image there; none
when it is not a valid package. -/
def commitImage (s : State) (fresh : Bool) (slot : Nat) : Option FwSlot :=
  let u := s.startup
  if fresh then
    let b := u.download.readBytes 0 u.downloadLen
    if packageOk b then some (slotOf b) else none
  else
    let k := fwSlot s slot
    if k.valid then some k else none

/-- The checks of a commit, in order: an activation runs, the slot, the image, its security version (R99, R546). A
downgrade under a window is marked as authorised. -/
def commitChecked (h : Sub) (fresh : Bool) (slot : Nat) (go : FwSlot → State → State) (s : State) : State :=
  if s.startup.activation.isSome then refuse h (sCmd 0x13) s
  else if slot ≠ 2 ∧ slot ≠ 3 then refuse h (sCmd 0x06) s
  else match commitImage s fresh slot with
    | none => refuse h (sCmd 0x07) s
    | some k =>
      if k.secver < s.startup.minVersion then
        if windowOpen s then go { k with authorised := true } (usePrivileged 6 s) else refuse h (sVendor 0x85) s
      else go { k with authorised := k.authorised && !fresh } s

/-- Writes a slot, and the directory; the downloaded image is used up. -/
def putSlot (fresh : Bool) (slot : Nat) (k : FwSlot) (s : State) : State :=
  writeDirectory (modStartup (fun u => { u with
    slots := Tab.set u.slots slot k
    download := if fresh then [] else u.download
    downloadLen := if fresh then 0 else u.downloadLen }) s)

/-- The slot is pending for the controller's next reset (R99, R544). -/
def pendSlot (h : Sub) (slot : Nat) (s : State) : State :=
  writeDirectory (modStartup (fun u => { u with pending := some slot, pendingReset := some h.port }) s)

/-- Firmware Commit, action 011b (R99, R523): while a region is retired, or the active version is below COMPAT_MIN, the
slot is committed for the next reset and the command completes with 0Bh; else the activation waits for its first step. -/
def commitActivate (h : Sub) (slot : Nat) (s : State) : State :=
  let fresh := decide (0 < s.startup.downloadLen)
  commitChecked h fresh slot (fun k s =>
    let s := putSlot fresh slot k s
    if (s.regions.any fun r => decide (r.2.state = .retired)) ∨ (fwSlot s s.startup.active).build < k.compatMin then
      refuse h (sCmd 0x0B) (pendSlot h slot s)
    else modStartup (fun u => { u with
      activation := some { h := some h, slot := slot, step := 0, region := 0, startedAt := s.datum }
      activationRegions := [] }) s) s

/-- Firmware Commit (R99): 000b replaces an image; 001b also makes it pending; 010b makes the image of the slot pending.
-/
def execFirmwareCommit (h : Sub) (action slot : Nat) (s : State) : Out :=
  .next (match action with
    | 0 => commitChecked h true slot (fun k s => completeOk h (putSlot true slot k s)) s
    | 1 => commitChecked h true slot (fun k s => completeOk h (pendSlot h slot (putSlot true slot k s))) s
    | 2 => commitChecked h false slot (fun k s => completeOk h (pendSlot h slot (putSlot false slot k s))) s
    | 3 => commitActivate h slot s
    | _ => refuse h sField s)

/-- Firmware Commit, action 011b (R523). -/
def execFirmwareCommitActivate (h : Sub) (slot : Nat) (s : State) : Out := .next (commitActivate h slot s)

/-! ### Rolling activation (R524, R525) -/

/-- A class 0x35 entry: step and region (R522). But for step 3 the spec names no unit and no region: free values
(assumption 33). -/
def stepEntry (step r : Nat) (s : State) : State :=
  if step = 3 then recordNote { level := 2, cls := 0x35, site := regionSite r, aux0 := step, aux1 := r } 0 s
  else
    let t := siteOf (freeNat s)
    recordNote { level := levelOf t, cls := 0x35, site := t, aux0 := step, aux1 := freeNat (drew 1 s) } 0 (drew 2 s)

/-- The activation reaches a step. -/
def setStep (a : Activation) (step r : Nat) (s : State) : State :=
  stepEntry step r (modStartup (fun u => { u with activation := some { a with step := step, region := r } }) s)

/-- Step 1: the slot is active for the next start-up; the Notice event and a checkpoint (R524). -/
def activationBegin (a : Activation) (s : State) : State :=
  let a := { a with startedAt := s.datum }
  let s := setStep a 1 0 (writeDirectory (modStartup (fun u => { u with pending := some a.slot, pendingReset := none }) s))
  checkpoint (notice 9 1 3 s)

/-- Step 2: the standby queue manager becomes active with the new microcode, as in R506. -/
def activationManagers (a : Activation) (s : State) : State :=
  let f := s.faults
  let b := 1 - f.qmActive % 2
  let s := if f.qm[b]'(by omega) = 0 then { s with faults := { f with qmActive := b } } else s
  setStep a 2 0 s

/-- The counter is raised to the SECVER of a package with RAISE; it never falls (R548). -/
def raiseVersion (slot : Nat) (s : State) : State :=
  let k := fwSlot s slot
  if k.raise then modStartup (fun u => { u with minVersion := max u.minVersion k.secver }) s else s

/-- Step 4: the supervisor copies switch to the new image together. -/
def activationSupervisor (a : Activation) (s : State) : State :=
  setStep a 4 0 (modStartup (fun u => { u with supActive := a.slot }) s)

/-- The activation ends; the command, unless a reset has ended it, completes. -/
def endActivation (a : Activation) (st : Status) (s : State) : State :=
  let s := modStartup (fun u => { u with activation := none, activationRegions := [] }) s
  match a.h with
  | some h => if st = sOk then completeOk h s else refuse h st s
  | none => s

/-- Step 5: the new version is the active one (R524, R548). -/
def activationDone (a : Activation) (s : State) : State :=
  let s := writeDirectory (modStartup (fun u => { u with active := a.slot, pending := none, pendingReset := none }) (stepEntry 5 0 s))
  endActivation a sOk (raiseVersion a.slot s)

/-- The next region that still runs the old firmware. -/
def nextRegion (s : State) : Option Nat := (List.range 8).find? fun r => !s.startup.activationRegions.contains r

/-- The next step begins when the one before has ended (R524). While a region is out or a unit is stopped at T2 it waits;
when a region retires, the command completes with 0Bh (R525). -/
def execActivationStep (s : State) : Out :=
  .next (match s.startup.activation with
    | none => s
    | some a =>
      if s.regions.any fun r => decide (r.2.state = .retired) then
        endActivation a (sCmd 0x0B) (if a.step = 0 then
          writeDirectory (modStartup (fun u => { u with pending := some a.slot, pendingReset := a.h.map (·.port) }) s) else s)
      else match a.step with
        | 0 => if (litRegions s).length = 8 ∧ anyStopped s = false then activationBegin a s else s
        | 1 => activationManagers a s
        | 2 | 3 =>
          match nextRegion s with
          | none => activationSupervisor a s
          | some r => if mayEclipse s r then beginEclipse r 0 0 (setStep a 3 r s) else s
        | _ => activationDone a s)

end Sys2Proof.Machine
end

