-- ==== Sys2Proof/Machine/Identify.lean ====
section
/-! DEFINITION. Identify (R74 to R77, R101, R458). Offsets of standard fields are those of the NVMe specification
(assumption 34). -/

namespace Sys2Proof.Machine

/-! ### Identify Controller (R62, R75, R491) -/

/-- FR: the active firmware version, as in the Firmware Slot log (R75). -/
def activeFr (s : State) : List Byte := fit 8 (fwSlot s s.startup.active).fr

/-- The power state descriptor of a state (R491). -/
def powerDescriptor (ps : Nat) : List Byte :=
  let mp := [7200, 5000, 3200, 1200, 400].getD ps 0
  let enlat := [0, 1000, 2000, 3000000, 3000000].getD ps 0
  let exlat := [0, 1000, 2000, 15000, 30000].getD ps 0
  let idlp := [1800, 1500, 1200, 900, 350].getD ps 0
  layout 32 [(0, toLe 2 mp), (3, toLe 1 (flagBit (decide (3 ≤ ps)) 1)), (4, toLe 4 enlat), (8, toLe 4 exlat),
    (12, List.replicate 4 (BitVec.ofNat 8 ps)), (16, toLe 2 idlp), (18, toLe 1 0x80)]

/-- The subsystem vendor and subsystem identifiers, of the strap image (R62). -/
def subsystemIds (s : State) : Nat × Nat := ((strapOf s).map fun t => (t.ssvid, t.ssid)).getD (0, 0)

/-- MN (R75). -/
def modelName : String := if Config.vehicleGrade then "Vyonata YN-832-V" else "Vyonata YN-832-D"

/-- Identify Controller (CNS 01h) as port `p` answers it (R75). -/
def identifyController (s : State) (p : PortId) : List Byte :=
  layout 4096 ([(0, toLe 2 Config.vendorId), (2, toLe 2 (subsystemIds s).1),
    (4, fit 16 Config.serial ++ asciiPad 4 ""), (24, asciiPad 40 modelName), (64, activeFr s),
    (76, toLe 1 (if s.startup.portMode then 0x0B else 0x08)), (77, toLe 1 12), (78, toLe 2 (p.val + 1)),
    (80, toLe 4 0x00020000), (84, toLe 4 4000000), (88, toLe 4 250000), (92, toLe 4 0x00000B00), (111, toLe 1 1),
    (256, toLe 2 0x002E), (258, toLe 1 255), (259, toLe 1 15), (260, toLe 1 0x17), (261, toLe 1 0x06),
    (262, toLe 1 255), (263, toLe 1 4), (264, toLe 1 1), (265, toLe 1 0), (266, toLe 2 378), (268, toLe 2 388),
    (270, toLe 2 80), (280, toLe 16 s.media.tnvmcap), (296, toLe 16 (unvmcap s)), (319, toLe 1 1),
    (328, toLe 4 3), (342, toLe 1 1), (343, toLe 1 3), (344, toLe 4 2), (348, toLe 4 2),
    (512, toLe 1 0x66), (513, toLe 1 0x44), (514, toLe 2 0), (516, toLe 4 1024), (520, toLe 2 0x00DC),
    (522, toLe 2 0), (524, toLe 1 0x04), (525, toLe 1 0x06), (526, toLe 2 1023), (528, toLe 2 1023),
    (536, toLe 4 1), (768, ascii "nqn.2019-07.net.vyonata:yn-832:" ++ fit 16 Config.serial)]
    ++ (List.range 5).map fun i => (2048 + 32 * i, powerDescriptor i))

/-! ### Identify Namespace (R76, R77) -/

/-- LBADS, MS and RP of the two LBA formats (R76). -/
def lbaFormats : List (Nat × List Byte) := [(128, toLe 4 (2 * 2 ^ 24 + 9 * 2 ^ 16)), (132, toLe 4 (12 * 2 ^ 16))]

/-- What both formats of every namespace report (R76). -/
def commonNs (s : State) : List (Nat × List Byte) :=
  [(24, toLe 1 0x12), (25, toLe 1 1), (30, toLe 1 (flagBit s.startup.portMode 0)), (33, toLe 1 0x09)] ++ lbaFormats

/-- NOWS of a namespace (R76). -/
def nows (n : Namespace) : Nat :=
  if n.lbaf = 0 then (if n.par2 then 959 else 991) else if n.par2 then 119 else 123

/-- Byte 3072 (R77). -/
def nsAttributes (n : Namespace) : Nat :=
  flagBit n.par2 3 + flagBit (!n.seals.isEmpty) 2 + flagBit n.xts 1 + flagBit n.evid 0

/-- Identify Namespace of one namespace (R76, R77). -/
def identifyNamespace (s : State) (n : Namespace) : List Byte :=
  let f0 := decide (n.lbaf = 0)
  let awun := if f0 then 8191 else 1023
  let g := if f0 then 31 else 3
  layout 4096 ([(0, toLe 8 n.nsze), (8, toLe 8 n.ncap), (16, toLe 8 n.nsze), (26, toLe 1 n.lbaf), (34, toLe 2 awun),
    (36, toLe 2 awun), (48, toLe 16 (n.nsze * blockBytes n)), (64, toLe 2 g), (66, toLe 2 g), (68, toLe 2 g),
    (70, toLe 2 g), (72, toLe 2 (nows n)), (92, toLe 4 n.anagrp), (104, fit 16 n.nguid),
    (3072, toLe 1 (nsAttributes n)), (3076, toLe 2 n.slice)] ++ commonNs s)

/-- The command set independent structure (CNS 08h): NMIC, ANA group, ready (R74, R76). -/
def identifyNsIndependent (s : State) (n : Namespace) : List Byte :=
  layout 4096 [(0, toLe 1 0x10), (1, toLe 1 (flagBit s.startup.portMode 0)), (4, toLe 4 n.anagrp), (14, toLe 1 1)]

/-- The identification descriptors (CNS 03h): NGUID and command set (R76). -/
def nsDescriptors (n : Namespace) : List Byte :=
  layout 4096 [(0, [2, 16]), (4, fit 16 n.nguid), (20, [4, 1]), (24, [0])]

/-- A list of identifiers of 4 bytes each. -/
def nsidList (l : List Nat) : List Byte := fit 4096 ((l.take 1024).flatMap (toLe 4))

/-- A controller list. -/
def ctrlList (l : List Nat) : List Byte := fit 4096 (toLe 2 l.length ++ l.flatMap (toLe 2))

/-! ### The command (R74, R458) -/

/-- A namespace that a slice may identify: slice 0 any, a tenant its own (R458). -/
def nsSeen (s : State) (sl nsid : Nat) : Option Namespace :=
  match nsOf s nsid with
  | some n => if sl = 0 ∨ n.slice = sl then some n else none
  | none => none

/-- The namespaces that a slice sees, those attached to port `p` only when `act` is set, above `nsid`. -/
def nsidsSeen (s : State) (sl : Nat) (p : PortId) (act : Bool) (nsid : Nat) : List Nat :=
  (s.namespaces.filter fun x =>
    decide (nsid < x.1) && (decide (sl = 0) || decide (x.2.slice = sl)) && (!act || attached x.2 p)).map (·.1)

/-- Answers about one namespace: 0Bh for an identifier out of range or of another slice, zeros for one that is not active
when `act` is set, or not allocated. -/
def aboutNs (h : Sub) (sl : Nat) (p : PortId) (act : Bool) (nsid : Nat) (f : Namespace → List Byte) (s : State) : State :=
  if nsid = 0 ∨ 1024 < nsid ∨ (sl ≠ 0 ∧ (nsSeen s sl nsid).isNone = true) then refuse h sNamespace s
  else match nsSeen s sl nsid with
    | some n => complete h sOk 0 0 (if act && !attached n p then zeros 4096 else f n) s
    | none => complete h sOk 0 0 (zeros 4096) s

/-- Identify for a slice (R74, R458). -/
def identify (h : Sub) (sl : Nat) (p : PortId) (cns nsid cntid csi : Nat) (s : State) : State :=
  let ok := fun bs => complete h sOk 0 0 bs s
  match cns with
  | 0x00 => if nsid = 0xFFFFFFFF then ok (layout 4096 (commonNs s)) else aboutNs h sl p true nsid (identifyNamespace s) s
  | 0x01 => ok (identifyController s p)
  | 0x02 => if 0xFFFFFFFE ≤ nsid then refuse h sNamespace s else ok (nsidList (nsidsSeen s sl p true nsid))
  | 0x03 => aboutNs h sl p true nsid nsDescriptors s
  | 0x05 => if csi ≠ 0 then refuse h sField s else aboutNs h sl p true nsid (fun _ => zeros 4096) s
  | 0x06 => if csi ≠ 0 then refuse h sField s else ok (zeros 4096)
  | 0x08 => aboutNs h sl p true nsid (identifyNsIndependent s) s
  | 0x10 => if 0xFFFFFFFE ≤ nsid then refuse h sNamespace s else ok (nsidList (nsidsSeen s sl p false nsid))
  | 0x11 => aboutNs h sl p false nsid (identifyNamespace s) s
  | 0x12 => aboutNs h sl p false nsid (fun n => ctrlList ((ctrlsOf s 0).filter fun c => decide (cntid ≤ c) && n.ctrls.contains c)) s
  | 0x13 => ok (ctrlList ((ctrlsOf s 0).filter fun c => decide (cntid ≤ c)))
  | 0x1C => ok (layout 4096 [(0, [1])])
  | _ => refuse h sField s

/-- Identify (R74). -/
def execIdentify (h : Sub) (cns nsid cntid csi : Nat) (s : State) : Out := .next (identify h 0 h.port cns nsid cntid csi s)

end Sys2Proof.Machine
end

