-- ==== Sys2Proof/Machine/Logs.lean ====
section
/-! DEFINITION. Get Log Page and its pages: the standard logs (R87, R214), and logs 0xC0 to 0xC6 (R48, R146, R161 to
R164, R177, R215 to R217, R468, R518, R519, R526 to R531). -/

namespace Sys2Proof.Machine

/-- A signed number in `n` bytes. -/
def toLeInt (n : Nat) (x : Int) : List Byte := toLe n (x % (2 ^ (8 * n) : Nat)).toNat

/-- A count that stops at the largest of `n` bytes. -/
def toLeSat (n x : Nat) : List Byte := toLe n (min (2 ^ (8 * n) - 1) x)

/-! ### Standard logs (R87, R102, R178, R214, R488) -/

/-- One entry of the Error Information log. -/
def errorBytes (e : ErrorEntry) : List Byte :=
  layout 64 [(0, toLe 8 e.count), (8, toLe 2 e.sq), (10, toLe 2 e.cid), (12, toLe 2 (e.sc % 256 * 2 + e.sct % 8 * 512)),
    (16, toLe 8 e.lba), (24, toLe 4 e.nsid)]

/-- Log 01h of a port; a tenant slice sees the entries of its queues (R458). -/
def errorLog (s : State) (sl : Nat) (p : PortId) : List Byte :=
  let x := sliceOf s sl
  let l := (portOf s p).errorLog.filter fun e => decide (sl = 0) || decide (x.qbase ≤ e.sq ∧ e.sq < x.qbase + x.qpairs)
  fit 16384 (l.flatMap errorBytes)

/-- Critical Warning (R214, R488). -/
def criticalWarning (s : State) : Nat :=
  let hot := s.thermal.t3 || anyStopped s || s.thermal.temps.any fun t => t.2.inside
  flagBit s.media.spareLow 0 + flagBit hot 1 + flagBit (mediaWarning s) 2 + flagBit s.media.readOnly 3
    + flagBit s.holdUp.warning 4

/-- EC_AVG: the mean erase count of blocks in service, rounded down (R215). -/
def meanOf (l : List Nat) : Nat := l.sum / max 1 l.length

/-- Percentage Used (R214). -/
def percentUsed (s : State) : Nat := min 255 (meanOf (eraseCounts s) * 100 / max 1 (geometry s).endurance)

/-- Kelvin of a temperature, or 0 when there is none. -/
def kelvinOr (t : Option Int) : Nat := ((t.map kelvin).getD 0).toNat

/-- Log 02h (R214, R488). -/
def smartLog (s : State) : List Byte :=
  let m := s.smart
  let errors := (s.ports.map fun p => p.2.errorCount).sum
  layout 512 ([(0, toLe 1 (criticalWarning s)), (1, toLe 2 (((composite s).map kelvin).getD 273).toNat),
    (3, toLe 1 (sparePct s)), (4, toLe 1 10), (5, toLe 1 (percentUsed s)),
    (32, toLe 16 (ceilDiv m.unitsRead 1000)), (48, toLe 16 (ceilDiv m.unitsWritten 1000)), (64, toLe 16 m.readCmds),
    (80, toLe 16 m.writeCmds), (96, toLe 16 m.busyMinutes), (112, toLe 16 s.pcc), (128, toLe 16 (s.opsec / 3600)),
    (144, toLe 16 m.unsafeShutdowns), (160, toLe 16 s.media.mediaErrors), (176, toLe 16 errors),
    (192, toLe 4 (m.warnSecs / 60)), (196, toLe 4 (m.critSecs / 60)), (216, toLe 4 m.tmt1Count), (220, toLe 4 m.tmt2Count),
    (224, toLe 4 m.tmt1Secs), (228, toLe 4 m.tmt2Secs)]
    ++ (List.range 8).map fun r => (200 + 2 * r, toLe 2 (kelvinOr (tjOf s r))))

/-- Log 03h: the active slot, the one for the next reset, and the versions of the slots that are valid (R547). -/
def firmwareLog (s : State) : List Byte :=
  let frs := fun i => if (fwSlot s i).valid then fit 8 (fwSlot s i).fr else zeros 8
  layout 512 [(0, toLe 1 (s.startup.active % 8 + s.startup.pending.getD 0 % 8 * 16)), (8, frs 1), (16, frs 2), (24, frs 3)]

/-- Log 05h (R87, R90): the effects of a command other than its support are free values (assumption 35). -/
def effectsLog : List Byte :=
  layout 4096 ((adminOpcodes ++ ioOpcodes.map (· + 256)).map fun i =>
    (4 * i, toLe 4 (1 + 2 * (Config.commandEffects i % 2 ^ 31))))

/-- Log pages supported (R87, R90). -/
def logPages : List Nat := [0x00, 0x01, 0x02, 0x03, 0x05, 0x0C, 0x81, 0xC0, 0xC1, 0xC2, 0xC3, 0xC4, 0xC5, 0xC6]

/-- Log 00h. -/
def supportedLog : List Byte := layout 1024 (logPages.map fun i => (4 * i, [1]))

/-- The ANA state of a group on a port: 1 optimized, 2 non-optimized (R101, R102). -/
def anaState (s : State) (p : PortId) (group : Nat) : Nat :=
  let o : PortId := if p = 0 then 1 else 0
  if s.startup.portMode && (portOf s p).rdy && (portOf s o).rdy && decide (group ≠ p.val + 1) then 2 else 1

/-- One ANA group descriptor; RGO leaves the namespaces out. -/
def anaGroupBytes (s : State) (p : PortId) (rgo : Bool) (group : Nat) : List Byte :=
  let l := if rgo then [] else
    (s.namespaces.filter fun n => attached n.2 p && decide (n.2.anagrp = group)).map (·.1)
  layout 32 [(0, toLe 4 group), (4, toLe 4 l.length), (8, toLe 8 (portOf s p).anaChanges), (16, toLe 1 (anaState s p group))]
    ++ l.flatMap (toLe 4)

/-- Log 0Ch (R101, R102). -/
def anaLog (s : State) (p : PortId) (rgo : Bool) : List Byte :=
  layout 16 [(0, toLe 8 (portOf s p).anaChanges), (8, toLe 2 2)] ++ anaGroupBytes s p rgo 1 ++ anaGroupBytes s p rgo 2

/-- Log 81h: Sanitize Status. -/
def sanitizeLog (s : State) : List Byte :=
  let m := s.media
  let stat := flagBit (decide (m.sanAction ≠ 0)) 0 + flagBit (!m.written) 8
  layout 512 [(0, toLe 2 0xFFFF), (2, toLe 2 stat), (4, toLe 4 m.sanAction), (8, List.replicate 24 0xFF)]

/-! ### Log 0xC0, Media Health (R215 to R217) -/

/-- Dies in a state. -/
def diesIn (s : State) (x : DieState) : Nat := (s.media.dies.filter fun d => decide (d.2.state = x)).length

/-- STATE of a DIE entry. -/
def dieStateCode (x : DieState) : Nat :=
  match x with
  | .notFitted => 0
  | .inService => 1
  | .retired => 2
  | .excluded => 3

/-- SPARE_LEFT (R216). -/
def spareLeft (s : State) (d : Die) : Int :=
  match d.state with
  | .inService => spareOf s d
  | .retired => d.spareAtRetire
  | _ => 0

/-- Mean erase count of a die's blocks in service. -/
def dieEcAvg (s : State) (i : Nat) (d : Die) : Nat :=
  meanOf ((blocksInService s i d).map fun b => (Tab.getD s.media.blocks (blockKey i b) {}).ec)

/-- One DIE entry (R216). -/
def dieBytes (s : State) (i : Nat) : List Byte :=
  let d := dieOf s i
  layout 16 [(0, toLe 1 (dieStateCode d.state)), (2, toLeInt 2 (spareLeft s d)), (4, toLeSat 2 d.grownBad),
    (6, toLeSat 2 (dieEcAvg s i d)), (8, toLeSat 4 d.retries), (12, toLeInt 2 (d.tempMax.getD 0)), (14, toLeSat 2 d.ldpcFails)]

/-- FLAGS (R215). -/
def mediaFlags (s : State) : Nat :=
  let m := s.media
  flagBit m.linkOver 5 + flagBit s.presence.sealNow 4 + flagBit s.presence.sealOpened 3 + flagBit (redundancyLost s) 2
    + flagBit m.spareLow 1 + flagBit m.readOnly 0

/-- Bytes 0 to 55, which both formats share (R215, R217). -/
def mediaHead (s : State) (format : Nat) : List (Nat × List Byte) :=
  let m := s.media
  let ecs := eraseCounts s
  [(0, toLe 8 s.datum), (8, toLe 2 format), (10, toLe 2 (diesIn s .inService)), (12, toLe 2 (diesIn s .excluded)),
    (14, toLe 2 (diesIn s .retired)), (16, toLe 1 m.dpc), (17, toLe 1 (mediaFlags s)), (18, toLe 1 (sparePct s)),
    (19, toLe 1 (percentUsed s)), (20, toLe 4 (geometry s).endurance), (24, toLeInt 4 m.spFormat), (28, toLeInt 4 (spNow s)),
    (32, toLe 4 (workReserve s)), (36, toLe 4 (m.linkStore / 1048576)), (40, toLe 4 (mibOf (linkBytes s))),
    (44, toLe 4 ((ecs.min?).getD 0)), (48, toLe 4 ((ecs.max?).getD 0)), (52, toLe 4 (meanOf ecs))]

/-- WA_MEAS (R215): the traffic since the oldest sample kept. -/
def waMeas (s : State) : Nat :=
  let m := s.media
  match m.waLog.getLast? with
  | some (_, a, b) => (m.nandUnits - b) * 1000 / max 1 (m.hostUnits - a)
  | none => m.nandUnits * 1000 / max 1 m.hostUnits

/-- One extreme of TEMP_EXT. -/
def tempExtBytes (s : State) (k : Nat) : List Byte :=
  match Tab.get? s.media.tempExt k with
  | some (t, op, pcc) => layout 12 [(0, toLeInt 2 t), (3, toLe 5 op), (8, toLe 4 pcc)]
  | none => zeros 12

/-- Log 0xC0, format 2 (R215). -/
def mediaLog (s : State) : List Byte :=
  let m := s.media
  layout 16896 (mediaHead s 2 ++ [(56, toLe 4 m.opPct), (60, toLe 4 (s.dram.gib * 128)), (64, toLe 8 m.hostUnits),
    (72, toLe 8 m.nandUnits), (80, toLe 8 m.gcUnits), (88, toLe 8 m.wlUnits), (96, toLe 8 m.readRetries),
    (104, toLe 8 m.softDecodes), (112, toLe 8 m.ldpcFails), (120, toLe 8 m.parityRebuilds), (128, toLe 8 m.unrecovered),
    (136, toLe 4 m.grownBad), (140, toLe 4 m.sealMismatch), (144, toLe 4 m.mapReloads), (148, toLe 4 (freeSbAll s)),
    (152, toLe 4 (waPred s * 1000).floor.toNat), (156, toLe 4 (waMeas s)), (160, toLe 8 m.checkpointDt),
    (168, toLe 4 m.replayMs), (176, (List.range 4).flatMap (tempExtBytes s)), (256, (ecHist s).flatMap (toLe 4)),
    (512, (List.range 1024).flatMap (dieBytes s))])

/-- Log 0xC0, format 1 (R217). -/
def mediaLogOld (s : State) : List Byte :=
  layout 8448 (mediaHead s 1 ++ [(256, (List.range 512).flatMap (dieBytes s))])

/-! ### Log 0xC1, Field Book (R526 to R531) -/

/-- One extreme (R527). -/
def extremeBytes (s : State) (k : Nat) : List Byte :=
  match Tab.get? s.book.extremes k with
  | some e => layout 16 [(0, toLeInt 4 e.value), (4, toLe 5 e.opsec), (9, toLe 2 e.source), (11, [1]), (12, toLe 4 e.pcc)]
  | none => zeros 16

/-- One HOLDUP record (R531). -/
def holdupBytes (r : Nat × Nat × Nat × Nat) : List Byte :=
  layout 16 [(0, toLe 2 r.1), (2, toLe 2 r.2.1), (4, toLe 5 r.2.2.1), (12, toLe 4 r.2.2.2)]

/-- COPIES (R529). -/
def copiesByte (s : State) : Nat :=
  flagBit (decide (s.book.nandGen = s.book.gen)) 1 + flagBit (decide (s.book.norGen = s.book.gen)) 0

/-- The 32-bit histogram counters from byte `o` on, `n` of them. -/
def histBytes (s : State) (o n : Nat) : List Byte := (List.range n).flatMap fun i => toLe 4 (Tab.getD s.book.hist (o + 4 * i) 0)

/-- DRAM counts of channel `d` (R531). -/
def dramBytes (s : State) (d : Nat) : List Byte :=
  let c := Tab.getD s.dram.channels d {}
  toLe 8 c.corrected ++ toLeSat 4 c.uncorrectable ++ toLeSat 4 c.misdirected

/-- Log 0xC1 (R528 to R531). -/
def bookLog (s : State) : List Byte :=
  let b := s.book
  layout 8192 [(0, toLe 8 s.datum), (8, toLe 2 1), (10, toLe 1 b.flushCause), (11, toLe 1 (copiesByte s)), (12, toLe 4 b.gen),
    (16, toLe 5 b.flushOpsec), (24, toLe 4 b.flushPcc), (28, toLe 4 b.clears), (32, toLe 5 b.clearOpsec),
    (40, toLe 4 b.clearPcc), (64, (List.range 32).flatMap fun i => toLe 4 (Tab.getD b.counters i 0)),
    (192, (List.range 64).flatMap (extremeBytes s)), (1216, histBytes s 1216 457), (3072, histBytes s 3072 128),
    (3584, (List.range 32).flatMap fun i => toLe 8 (Tab.getD b.ldpc i 0)),
    (3840, b.ecHist.flatMap (toLe 4)), (4096, (List.range 8).flatMap (dramBytes s)),
    (4224, (b.holdup.take 64).flatMap holdupBytes), (5248, histBytes s 5248 384)]

/-! ### Log 0xC2 (R161 to R164, R177) -/

/-- View 0 (R162). -/
def monumentView (s : State) (nsid : Nat) (n : Namespace) : List Byte :=
  let c := n.chain
  layout 256 [(0, toLe 8 s.datum), (8, toLe 2 1), (12, toLe 4 nsid), (16, toLe 8 c.monuments.length),
    (24, toLe 8 c.links.length), (32, toLe 4 c.epoch), (40, headOf c)] ++ c.monuments.flatMap (fit 256)

/-- One link record (R163). -/
def linkBytesOf (l : Link) : List Byte :=
  layout 128 [(0, toLe 8 l.lseq), (8, toLe 8 l.slba), (16, toLe 4 l.nlb), (20, toLe 2 l.sid), (22, toLe 1 l.op),
    (24, toLe 8 l.datum), (32, toLe 5 l.opsec), (40, toLe 4 l.pcc), (48, fit 32 l.ddig), (80, fit 32 l.link)]

/-- View 2 (R164). -/
def certificateView (s : State) : List Byte :=
  let c := s.certificate.take 2048
  fit 4096 (toLe 4 c.length ++ c)

/-- One seal (R177). -/
def sealBytes (e : SealEntry) : List Byte :=
  layout 64 [(0, toLe 8 e.slba), (8, toLe 8 e.nlb), (16, fit 16 e.label), (32, toLe 8 e.datum), (40, toLe 8 e.mseq)]

/-- View 3 (R177). -/
def sealView (s : State) (nsid : Nat) (n : Namespace) : List Byte :=
  layout 64 [(0, toLe 8 s.datum), (8, toLe 2 1), (12, toLe 4 nsid), (16, toLe 4 n.seals.length)] ++ n.seals.flatMap sealBytes

/-- Log 0xC2 for a slice: its view, or none for Invalid Field (R161). -/
def chainLog (s : State) (sl nsid lsp : Nat) : Option (List Byte) :=
  if lsp = 2 then some (certificateView s)
  else match nsSeen s sl nsid with
    | some n =>
      if n.evid = false then none
      else match lsp with
        | 0 => some (monumentView s nsid n)
        | 1 => some (n.chain.links.flatMap linkBytesOf)
        | 3 => some (sealView s nsid n)
        | _ => none
    | none => none

/-! ### Log 0xC3 (R146) -/

/-- One reservation. -/
def resvBytes (r : Reservation) : List Byte :=
  layout 128 [(0, toLe 4 r.nsid), (4, toLe 2 r.sid), (6, toLe 2 r.slice), (8, toLe 1 r.cls),
    (9, toLe 1 (flagBit r.missed 1 + flagBit r.atRisk 0)), (12, toLe 4 r.bw), (16, toLe 4 r.maxw), (20, toLe 4 r.burst),
    (24, toLe 4 r.lbound), (28, toLe 4 r.maxLat), (32, toLe 8 r.admitted), (40, toLe 8 r.bytes), (48, toLeSat 4 r.writes),
    (52, toLeSat 4 r.excess), (56, toLeSat 4 r.misses), (60, toLeSat 2 r.oversize), (62, toLeSat 2 r.dipMiss),
    (64, r.bins.flatMap (toLeSat 4))]

/-- HU_FLAGS (R146). -/
def huFlags (s : State) : Nat :=
  let u := s.holdUp
  flagBit s.dump.active 5 + flagBit u.latched 4 + flagBit u.forbidden 3 + flagBit u.charging 2 + flagBit (holdUpBad s) 1
    + flagBit u.writeThrough 0

/-- Log 0xC3 for a slice (R146): a tenant's own reservations. -/
def streamLog (s : State) (sl : Nat) : List Byte :=
  let l := s.resvs.filter fun r => decide (sl = 0) || decide (r.slice = sl)
  let u := s.holdUp
  let head := layout 128 [(0, toLe 8 s.datum), (8, toLe 2 1), (10, toLe 2 l.length), (12, toLe 4 s.resvGen),
    (16, toLe 4 (limitB s / 1048576)), (20, toLe 4 (mibOf (dirtyBytes s))), (24, toLe 1 (huFlags s)), (25, toLe 1 (wtCause s)),
    (28, toLe 2 (capUnits s)), (30, toLe 2 (esrUnits s)), (32, toLe 2 (nearest (bankVolts u.vbank * 100))),
    (36, toLe 8 u.measDt), (44, toLe 4 s.dump.dumps), (48, toLe 4 s.dump.recovered), (52, toLe 4 s.dump.dumpMax),
    (56, toLe 4 s.dump.dipHeld)]
  fit 524416 (head ++ l.flatMap resvBytes)

/-! ### Log 0xC4 (R518, R519) -/

/-- One entry of the fault record (R519). -/
def faultBytes (e : LogEntry) : List Byte :=
  layout 64 [(0, toLe 4 e.seq), (4, toLe 1 e.level), (5, toLe 1 e.cls), (6, toLe 1 e.outcome), (7, toLe 1 e.event),
    (8, toLe 8 e.datum), (16, toLe 5 e.opsec), (24, toLe 4 e.pcc), (28, toLe 2 (e.site.kind * 4096 + e.site.index)),
    (30, toLe 2 e.slice), (32, toLe 8 e.addr), (40, toLe 4 e.aux0), (44, toLe 4 e.aux1), (48, toLe 4 e.related)]

/-- Log 0xC4 (R518). -/
def faultLog (s : State) : List Byte :=
  let f := s.faults
  fit 16448 (layout 64 [(0, toLe 8 s.datum), (8, toLe 2 1), (10, toLe 2 f.ring.length), (12, toLe 4 f.newest),
    (16, toLe 4 f.maskedEver), (20, toLe 4 f.detectedEver)] ++ f.ring.flatMap faultBytes)

/-! ### Log 0xC5 (R48) -/

/-- One REGION entry. -/
def regionBytes (s : State) (r : Nat) : List Byte :=
  let g := region s r
  layout 8 [(0, toLe 2 g.pace), (2, toLe 2 g.paceMin), (4, toLe 2 g.paceMax), (6, toLe 1 (stateCode g)), (7, toLe 1 g.trim)]

/-- Log 0xC5 (R48); while a computation runs, TRIGGER names its cause beside the COMPUTED stamp of the one before (DESIGN
CHOICE, assumption 127). -/
def baseLog (s : State) : List Byte :=
  let b := s.base
  layout 512 [(0, toLe 8 s.datum), (8, toLe 8 b.computed), (16, toLe 2 1), (18, toLe 1 b.trigger), (19, toLe 1 (regionsOut s)),
    (20, toLe 1 (regionMask fun r => decide ((region s r).state ≠ .retired))), (21, toLe 1 (regionMask (isLit s))),
    (24, toLe 4 b.baseWbw), (28, toLe 4 (ceilDiv (resvTotal s) 1000)), (32, toLe 4 b.baseCore), (36, toLe 4 s.resvs.length),
    (40, toLe 4 b.hbGc), (44, toLe 4 (hbDip s / 1024)), (48, toLe 4 s.late), (52, toLe 4 s.vcore.vset),
    (56, toLe 4 s.vcore.vread), (64, (List.range 8).flatMap (regionBytes s))]

/-! ### Log 0xC6 (R468) -/

/-- Free program slots of the pool. -/
def slotsFree (s : State) : Nat := 1024 - ((tenants s).map fun p => p.2.slots).sum - slotsHeld s 0

/-- Stream bandwidth of the pool, MB/s (R453). -/
def bwFree (s : State) : Nat := s.base.baseWbw - ((tenants s).map fun p => p.2.streamBw).sum

/-- Key-array units of the pool that slice 0 does not use. -/
def kaFree (s : State) : Nat := kaAllot s 0 - (sliceOf s 0).kaUsed

/-- Compute memory of the pool that slice 0 does not use, MiB. -/
def dramFree (s : State) : Nat := dramAllot s 0 - dramInUse s 0

/-- The header of view 0; a tenant's has its pool fields zero. -/
def sliceHead (s : State) (sl : Nat) : List Byte :=
  let own := [(0, toLe 8 s.datum), (8, toLe 2 1), (10, toLe 2 (tenants s).length), (12, toLe 4 s.sliceGen)]
  let pool := [(16, toLe 4 (dramFree s)), (20, toLe 4 s.scrubMib), (24, toLe 4 (capFree s 0 / 2 ^ 30)),
    (28, toLe 2 (kaFree s)), (30, toLe 2 (slotsFree s)), (32, toLe 1 (ctxShare s 0)), (36, toLe 4 (bwFree s))]
  layout 64 (if sl = 0 then own ++ pool else own)

/-- STATE of an entry. -/
def sliceStateCode (x : SliceState) : Nat :=
  match x with
  | .none => 0
  | .active => 1
  | .destroying => 2

/-- One slice entry (R468). -/
def sliceBytes (s : State) (i : Nat) : List Byte :=
  let x := sliceOf s i
  let gib := fun n => n / 2 ^ 30
  if i ≠ 0 ∧ x.state = .none then layout 128 [(0, toLe 2 i)]
  else
    let capTotal := if i = 0 then gib (capFree s 0 + capUsed s 0) else x.capGib
    layout 128 [(0, toLe 2 i), (2, toLe 1 (if i = 0 then 1 else sliceStateCode x.state)),
      (3, toLe 1 (flagBit (decide (x.port = 1)) 1 + flagBit (forerunner s i) 0)), (4, toLe 4 x.pasid),
      (8, toLe 2 x.qbase), (10, toLe 2 x.qpairs), (12, toLe 2 x.vbase), (14, toLe 2 x.vectors),
      (16, toLe 4 (dramAllot s i)), (20, toLe 4 (dramInUse s i)), (24, toLe 4 x.commonMib),
      (28, toLe 4 capTotal), (32, toLe 4 (ceilDiv (capUsed s i) (2 ^ 30))), (36, toLe 2 (kaAllot s i)), (38, toLe 2 x.kaUsed),
      (40, toLe 1 (slotShare s i)), (41, toLe 1 (slotsHeld s i)), (42, toLe 1 (ctxShare s i)), (43, toLe 1 (ctxUsed s i)),
      (44, toLe 4 (if i = 0 then bwFree s else x.streamBw)), (48, toLe 4 (ceilDiv (resvOfSlice s i) 1000)),
      (52, toLe 2 (weightOf s i)), (54, toLe 2 (s.tasks.filter fun t => decide (t.2.slice = i)).length),
      (56, toLe 2 (s.namespaces.filter fun n => decide (n.2.slice = i)).length), (60, toLeSat 4 x.transFaults),
      (64, toLeSat 4 x.dfree), (68, toLeSat 4 x.progFaults), (72, toLeSat 4 x.budgets), (76, toLeSat 4 (mibOf x.lostMem)),
      (80, toLe 8 x.created)]

/-- One program slot (R468). -/
def slotBytes (s : State) (i : Nat) : List Byte :=
  match Tab.get? s.progs i with
  | none => layout 64 [(0, toLe 2 i), (2, toLe 2 0xFFFF)]
  | some g => layout 64 [(0, toLe 2 i), (2, toLe 2 g.slice), (4, toLe 1 (if g.closing then 2 else 1)), (5, toLe 1 g.isa),
      (8, toLe 8 g.version), (16, fit 16 g.name), (32, fit 32 g.keyfp)]

/-- Log 0xC6 for a slice: its view, or none for Invalid Field (R468). -/
def sliceLog (s : State) (sl lsp : Nat) : Option (List Byte) :=
  match lsp with
  | 0 => some (fit 32960 (sliceHead s sl ++ (if sl = 0 then (List.range 257).flatMap (sliceBytes s) else sliceBytes s sl)))
  | 1 =>
    let l := if sl = 0 then List.range 1024 else (s.progs.filter fun p => decide (p.2.slice = sl)).map (·.1)
    some (fit 65536 (l.flatMap (slotBytes s)))
  | _ => none

/-! ### Get Log Page (R10, R87, R90, R92, R458) -/

/-- Logs that a tenant slice may read (R458). -/
def tenantLogs : List Nat := [0x01, 0x02, 0xC0, 0xC2, 0xC3, 0xC5, 0xC6]

/-- The content of a log for a slice: the status that refuses it, or its bytes. -/
def logContent (s : State) (sl : Nat) (p : PortId) (nsid lid lsp : Nat) : Except Status (List Byte) :=
  let viewed := decide (lid = 0xC2 ∨ lid = 0xC6)
  if !logPages.contains lid || (decide (sl ≠ 0) && !tenantLogs.contains lid) then .error (sCmd 0x09)
  else if lsp ≠ 0 ∧ viewed = false ∧ ¬ (lid = 0x0C ∧ lsp = 1) then .error sField
  else match lid with
    | 0x00 => .ok supportedLog
    | 0x01 => .ok (errorLog s sl p)
    | 0x02 => if nsid = 0 ∨ nsid = 0xFFFFFFFF then .ok (smartLog s) else .error sField
    | 0x03 => .ok (firmwareLog s)
    | 0x05 => .ok effectsLog
    | 0x0C => .ok (anaLog s p (decide (lsp = 1)))
    | 0x81 => .ok (sanitizeLog s)
    | 0xC0 => .ok (if forerunner s sl then mediaLogOld s else mediaLog s)
    | 0xC1 => .ok (bookLog s)
    | 0xC2 => match chainLog s sl nsid lsp with
      | some b => .ok b
      | none => .error sField
    | 0xC3 => .ok (streamLog s sl)
    | 0xC4 => .ok (faultLog s)
    | 0xC5 => .ok (baseLog s)
    | _ => match sliceLog s sl lsp with
      | some b => .ok b
      | none => .error sField

/-- A log has been read with RAE cleared: its events on the port may be reported again (R92). -/
def logRead (p : PortId) (lid : Nat) (s : State) : State :=
  modPort p (fun q => { q with unread := q.unread.filter fun e => decide (e.log ≠ lid) }) s

/-- Get Log Page for a slice: bytes beyond the end of a view read as zero (R161); an offset beyond a standard log is
invalid (PRESUMED, assumption 34). -/
def getLog (h : Sub) (sl : Nat) (p : PortId) (nsid lid lsp : Nat) (rae : Bool) (off len : Nat) (s : State) : State :=
  if off % 4 ≠ 0 ∨ len % 4 ≠ 0 ∨ 16777216 < len then refuse h sField s
  else match logContent s sl p nsid lid lsp with
    | .error st => refuse h st s
    | .ok b =>
      if lid < 0xC0 ∧ b.length ≤ off then refuse h sField s
      else complete h sOk 0 0 (fit len (b.drop off)) (if rae || decide (sl ≠ 0) then s else logRead p lid s)

/-- Get Log Page (R87, R90). -/
def execGetLogPage (h : Sub) (nsid lid lsp : Nat) (rae : Bool) (off len : Nat) (s : State) : Out :=
  .next (getLog h 0 h.port nsid lid lsp rae off len s)

end Sys2Proof.Machine
end

