-- ==== Sys2Proof/Machine/Mi.lean ====
section
/-! DEFINITION. The management endpoint (R105): NVMe-MI requests over SMBus. The formats and the status codes are those of
NVMe-MI 1.2 (PRESUMED, assumption 39); what that standard leaves to the device is free. -/

namespace Sys2Proof.Machine

/-- Answers a request. -/
def miAnswer (status : Nat) (bs : List Byte) (s : State) : State := { s with mi := { s.mi with status := status, response := bs } }

/-- Success. -/
def miOk (bs : List Byte) (s : State) : State := miAnswer 0 bs s

/-- Invalid Command Opcode (R105). -/
def miOpcode (s : State) : State := miAnswer 3 [] s

/-- Invalid Parameter. -/
def miParameter (s : State) : State := miAnswer 4 [] s

/-- `n` bytes that the standard leaves to the device, for a kind of response. -/
def miFree (kind n : Nat) : List Byte := (List.range n).map (Config.miByte kind)

/-- The strap's SMBus address (R105, R549). -/
def smbusAddr (s : State) : Nat := ((s.startup.strap).map (·.smbusAddr)).getD 0x1D

/-- PCIe ports of the subsystem (R61). -/
def pciePorts (s : State) : Nat := if s.startup.portMode then 2 else 1

/-- Controllers present with an identifier of at least `from'`. -/
def miControllers (s : State) (from' : Nat) : List (Nat × HostPort) :=
  (s.ports.filter fun p => p.2.present && decide (from' ≤ p.1 + 1)).map fun p => (p.1 + 1, p.2)

/-- Port Information: a PCIe port, or the SMBus port, which stands after them; 64-byte transmission units (R105). -/
def miPort (s : State) (n : Nat) : List Byte :=
  if n < pciePorts s then [1, 0] ++ toLe 2 64 ++ miFree 1 28
  else [2, 0] ++ toLe 2 64 ++ toLe 4 0 ++ toLe 1 0 ++ toLe 1 0 ++ toLe 1 (2 * smbusAddr s) ++ toLe 1 2 ++ zeros 20

/-- Read NVMe-MI Data Structure: subsystem, port, controller list, controller, optional commands (none). -/
def miData (s : State) (typ port ctrl : Nat) : Option (List Byte) :=
  let cs := miControllers s ctrl
  match typ with
  | 0 => some ([BitVec.ofNat 8 (pciePorts s), 1, 2, 0] ++ zeros 28)
  | 1 => if port ≤ pciePorts s then some (miPort s port) else none
  | 2 => some (toLe 2 cs.length ++ cs.flatMap fun c => toLe 2 c.1)
  | 3 => match cs.head? with
    | some c =>
      if c.1 = ctrl then
        some (toLe 1 (c.1 - 1) ++ miFree 2 7 ++ toLe 2 Config.vendorId ++ toLe 2 0x0832
          ++ toLe 2 (((s.startup.strap).map (·.ssvid)).getD Config.vendorId)
          ++ toLe 2 (((s.startup.strap).map (·.ssid)).getD 0x0832) ++ zeros 16)
      else none
    | none => none
  | 4 => some (toLe 2 0)
  | _ => none

/-- A temperature as one byte: °C, at most 127, negative ones in two's complement down to −60. -/
def miCelsius (s : State) : Nat :=
  let t := max (-60) (min 127 (((composite s).getD 0).fdiv 4))
  (t % 256).toNat

/-- What a flag of the composite controller status watches, over the controllers: 0 RDY, 1 CFS, 2 SHST, 9 temperature
above its threshold, 10 percentage used, 11 spare, 12 critical warning. -/
def miWatched (s : State) (flag : Nat) : Nat :=
  let packed := fun f : HostPort → Nat => (s.ports.map fun p => f p.2 * 4 ^ p.1).sum
  match flag with
  | 0 => packed fun q => flagBit q.rdy 0
  | 1 => packed fun q => flagBit q.cfs 0
  | 2 => packed (·.shst)
  | 9 => if criticalWarning s / 2 % 2 = 1 then 1 else 0
  | 10 => percentUsed s
  | 11 => sparePct s
  | 12 => criticalWarning s
  | _ => 0

/-- Flags of the composite controller status that the device drives. -/
def miFlags : List Nat := [0, 1, 2, 9, 10, 11, 12]

/-- Composite controller status: a flag is set while what it watches differs from what it was when the flag was last
cleared (R105; DEDUCED, assumption 141). -/
def miComposite (s : State) : Nat :=
  (miFlags.map fun i => flagBit (decide (miWatched s i ≠ Tab.getD s.mi.seen i 0)) i).sum

/-- Clears the flags of a mask. -/
def miClear (mask : Nat) (s : State) : State :=
  { s with mi := { s.mi with
    seen := (miFlags.filter fun i => bit mask i).foldl (fun m i => Tab.set m i (miWatched s i)) s.mi.seen } }

/-- NVM Subsystem Health Status Poll: the subsystem, warnings inverted, temperature, wear, composite controller status. -/
def miHealth (s : State) : List Byte :=
  let failed := s.ports.any fun p => p.2.cfs
  let link := fun k : Nat => flagBit (Tab.getD s.ports k {}).linkUp (3 - k)
  toLe 1 (flagBit (!s.startup.stopped && !failed) 5 + 16 + link 0 + link 1) ++ toLe 1 (255 - criticalWarning s)
    ++ toLe 1 (miCelsius s) ++ toLe 1 (min 254 (percentUsed s)) ++ toLe 2 (miComposite s) ++ zeros 2

/-- One controller's entry of Controller Health Status Poll: a trip shows in its warnings (R481). -/
def miControllerHealth (s : State) (c : Nat × HostPort) : List Byte :=
  toLe 2 c.1 ++ toLe 2 (flagBit c.2.rdy 0 + flagBit c.2.cfs 1 + c.2.shst % 4 * 4) ++ toLe 2 (kelvinOr (composite s))
    ++ toLe 1 (percentUsed s) ++ toLe 1 (sparePct s) ++ toLe 1 (criticalWarning s) ++ miFree 4 2 ++ zeros 5

/-- Configuration Set: SMBus frequency 100 or 400 kHz, health status change, which clears the flags it names, a
transmission unit of 64 bytes (R105). -/
def miConfigSet (id value : Nat) (s : State) : State :=
  match id with
  | 1 => if value = 1 ∨ value = 2 then miOk [] { s with mi := { s.mi with freq := value } } else miParameter s
  | 2 => miOk [] (miClear value s)
  | 3 => if value = 64 then miOk [] { s with mi := { s.mi with mtu := value } } else miParameter s
  | _ => miParameter s

/-- Configuration Get. -/
def miConfigGet (id : Nat) (s : State) : State :=
  match id with
  | 1 => miOk (toLe 1 s.mi.freq) s
  | 2 => miOk [] s
  | 3 => miOk (toLe 2 s.mi.mtu) s
  | _ => miParameter s

/-- A tunnelled command of a controller that is present: what it completes with, status and data, and nothing else of its
effect (R105). -/
def miTunnel (p : PortId) (f : State → State) (s : State) : State :=
  if !(portOf s p).present then miParameter s
  else match (f { s with decided := [] }).decided.getLast? with
    | some c => miAnswer (c.sct * 256 + c.sc) (toLe 4 c.dw0.toNat ++ c.data) s
    | none => s

/-- Log pages that NVMe-MI may read (R105). -/
def miLogs : List Nat := [0x01, 0x02, 0x03, 0xC0, 0xC1, 0xC4, 0xC5]

/-- Carries out a request. -/
def miRequest (r : MiRequest) (s : State) : State :=
  let from' := fun p : PortId => ({ port := p, sq := 0, cid := 0 } : Sub)
  match r with
  | .readDataStructure typ port ctrl => (match miData s typ port ctrl with
    | some bs => miOk bs s
    | none => miParameter s)
  | .subsystemHealthPoll clear =>
    let s := miOk (miHealth s) s
    if clear then miClear (2 ^ 16 - 1) s else s
  | .controllerHealthPoll ctrl => miOk ((miControllers s ctrl).flatMap (miControllerHealth s)) s
  | .configGet id => miConfigGet id s
  | .configSet id value => miConfigSet id value s
  | .identify p cns nsid cntid csi => miTunnel p (identify (from' p) 0 p cns nsid cntid csi) s
  | .getFeatures p fid sel v => miTunnel p (getFeatures (from' p) 0 p fid sel v) s
  | .getLogPage p nsid lid lsp off len =>
    if miLogs.contains lid then miTunnel p (getLog (from' p) 0 p nsid lid lsp true off len) s else miOpcode s
  | .other _ => miOpcode s

/-- An NVMe-MI request (R105): answered from the end of step 2 of start-up (R552), in every power state, and after a
trip while VAON is present (R481). -/
def execNvmeMiRequest (r : MiRequest) (s : State) : Out :=
  .next (if s.vaon && (s.startup.input.isSome || s.dump.poweredDown) then miRequest r s else s)

end Sys2Proof.Machine
end

