-- ==== Sys2Proof/Machine/OpAlu.lean ====
section
/-! DEFINITION. The integer operations of Opxus (R296 to R298). -/

namespace Sys2Proof.Machine

/-- `w` ones (R297). -/
def mask32 (w : Nat) : Word := BitVec.ofNat 32 (2 ^ w - 1)

/-- Signed division, rounded toward zero; it never traps (R296). -/
def divS (a b : Word) : Word :=
  if b = 0 then 0xFFFFFFFF#32 else if a = 0x80000000#32 ∧ b = 0xFFFFFFFF#32 then 0x80000000#32 else a.sdiv b

/-- Unsigned division (R296). -/
def divU (a b : Word) : Word := if b = 0 then 0xFFFFFFFF#32 else a / b

/-- Signed remainder (R296). -/
def remS (a b : Word) : Word :=
  if b = 0 then a else if a = 0x80000000#32 ∧ b = 0xFFFFFFFF#32 then 0 else a.srem b

/-- Unsigned remainder (R296). -/
def remU (a b : Word) : Word := if b = 0 then a else a % b

/-- High word of the signed product (R296). -/
def mulHigh (a b : Word) : Word := ((a.signExtend 64 * b.signExtend 64) >>> 32).truncate 32

/-- High word of the unsigned product (R296). -/
def mulHighU (a b : Word) : Word := ((a.zeroExtend 64 * b.zeroExtend 64) >>> 32).truncate 32

/-- Number of 0 bits above the highest 1 bit among the low `n` bits of `a` (R298). -/
def leadingZeros (a : Word) : Nat → Nat
  | 0 => 0
  | n + 1 => if a.getLsbD n then 0 else leadingZeros a n + 1

/-- Number of 1 bits (R296). -/
def popCount (a : Word) : Nat := ((List.range 32).filter fun i => a.getLsbD i).length

/-- Unsigned field of width `w` at position `p` (R297). -/
def fieldU (a : Word) (p w : Nat) : Word := (a >>> p) &&& mask32 w

/-- Signed field of width `w`, 1 to 32, at position `p` (R297). -/
def fieldS (a : Word) (p w : Nat) : Word := ((a >>> p) <<< (32 - w)).sshiftRight (32 - w)

/-- Field insert (R297). -/
def fieldIns (d a : Word) (p w : Nat) : Word := (d &&& ~~~ (mask32 w <<< p)) ||| ((a &&& mask32 w) <<< p)

/-- Position of a register form (R297). -/
def regPos (b : Word) : Nat := bits b.toNat 4 0

/-- Width of a register form, clamped to 32 − P (R297). -/
def regWidth (b : Word) : Nat := min (bits b.toNat 9 5 + 1) (32 - regPos b)

/-- Byte `i` of the eight source bytes (R298). -/
def permByte (lo hi : Word) (i : Nat) : Nat :=
  if i < 4 then bits lo.toNat (8 * i + 7) (8 * i) else bits hi.toNat (8 * (i - 4) + 7) (8 * (i - 4))

/-- Byte permutation under a 12-bit selector (R298). -/
def permute (sel : Nat) (lo hi : Word) : Word :=
  BitVec.ofNat 32 (((List.range 4).map fun k => permByte lo hi (bits sel (3 * k + 2) (3 * k)) * 2 ^ (8 * k)).sum)

/-- `add`: wd = wa + wb (R296). -/
def execOpAdd (c : CoreId) (g : Guard) (d a b : Reg) (s : State) : Out :=
  .next (issue c g (encG g 0x01 d.val a.val b.val 0x00) true (toReg d fun v => rd v a + rd v b) s)

/-- `sub`: wd = wa − wb (R296). -/
def execOpSub (c : CoreId) (g : Guard) (d a b : Reg) (s : State) : Out :=
  .next (issue c g (encG g 0x01 d.val a.val b.val 0x01) true (toReg d fun v => rd v a - rd v b) s)

/-- `and`: wd = wa & wb (R296). -/
def execOpAnd (c : CoreId) (g : Guard) (d a b : Reg) (s : State) : Out :=
  .next (issue c g (encG g 0x01 d.val a.val b.val 0x02) true (toReg d fun v => rd v a &&& rd v b) s)

/-- `or`: wd = wa | wb (R296). -/
def execOpOr (c : CoreId) (g : Guard) (d a b : Reg) (s : State) : Out :=
  .next (issue c g (encG g 0x01 d.val a.val b.val 0x03) true (toReg d fun v => rd v a ||| rd v b) s)

/-- `xor`: wd = wa ^ wb (R296). -/
def execOpXor (c : CoreId) (g : Guard) (d a b : Reg) (s : State) : Out :=
  .next (issue c g (encG g 0x01 d.val a.val b.val 0x04) true (toReg d fun v => rd v a ^^^ rd v b) s)

/-- `andn`: wd = wa & ~wb (R296). -/
def execOpAndn (c : CoreId) (g : Guard) (d a b : Reg) (s : State) : Out :=
  .next (issue c g (encG g 0x01 d.val a.val b.val 0x05) true (toReg d fun v => rd v a &&& ~~~ rd v b) s)

/-- `shl`: left by wb[4:0] (R296). -/
def execOpShl (c : CoreId) (g : Guard) (d a b : Reg) (s : State) : Out :=
  .next (issue c g (encG g 0x01 d.val a.val b.val 0x06) true (toReg d fun v => rd v a <<< bits (rd v b).toNat 4 0) s)

/-- `shr`: right by wb[4:0], zero fill (R296). -/
def execOpShr (c : CoreId) (g : Guard) (d a b : Reg) (s : State) : Out :=
  .next (issue c g (encG g 0x01 d.val a.val b.val 0x07) true (toReg d fun v => rd v a >>> bits (rd v b).toNat 4 0) s)

/-- `sar`: right by wb[4:0], sign fill (R296). -/
def execOpSar (c : CoreId) (g : Guard) (d a b : Reg) (s : State) : Out :=
  .next (issue c g (encG g 0x01 d.val a.val b.val 0x08) true (toReg d fun v => (rd v a).sshiftRight (bits (rd v b).toNat 4 0)) s)

/-- `ror`: rotated right by wb[4:0] (R296). -/
def execOpRor (c : CoreId) (g : Guard) (d a b : Reg) (s : State) : Out :=
  .next (issue c g (encG g 0x01 d.val a.val b.val 0x09) true (toReg d fun v => (rd v a).rotateRight (bits (rd v b).toNat 4 0)) s)

/-- `mul`: low word of the product (R296). -/
def execOpMul (c : CoreId) (g : Guard) (d a b : Reg) (s : State) : Out :=
  .next (issue c g (encG g 0x01 d.val a.val b.val 0x0A) true (toReg d fun v => rd v a * rd v b) s)

/-- `mulh`: high word of the signed product (R296). -/
def execOpMulh (c : CoreId) (g : Guard) (d a b : Reg) (s : State) : Out :=
  .next (issue c g (encG g 0x01 d.val a.val b.val 0x0B) true (toReg d fun v => mulHigh (rd v a) (rd v b)) s)

/-- `mulhu`: high word of the unsigned product (R296). -/
def execOpMulhu (c : CoreId) (g : Guard) (d a b : Reg) (s : State) : Out :=
  .next (issue c g (encG g 0x01 d.val a.val b.val 0x0C) true (toReg d fun v => mulHighU (rd v a) (rd v b)) s)

/-- `div`: signed division (R296). -/
def execOpDiv (c : CoreId) (g : Guard) (d a b : Reg) (s : State) : Out :=
  .next (issue c g (encG g 0x01 d.val a.val b.val 0x0D) true (toReg d fun v => divS (rd v a) (rd v b)) s)

/-- `divu`: unsigned division (R296). -/
def execOpDivu (c : CoreId) (g : Guard) (d a b : Reg) (s : State) : Out :=
  .next (issue c g (encG g 0x01 d.val a.val b.val 0x0E) true (toReg d fun v => divU (rd v a) (rd v b)) s)

/-- `rem`: signed remainder (R296). -/
def execOpRem (c : CoreId) (g : Guard) (d a b : Reg) (s : State) : Out :=
  .next (issue c g (encG g 0x01 d.val a.val b.val 0x0F) true (toReg d fun v => remS (rd v a) (rd v b)) s)

/-- `remu`: unsigned remainder (R296). -/
def execOpRemu (c : CoreId) (g : Guard) (d a b : Reg) (s : State) : Out :=
  .next (issue c g (encG g 0x01 d.val a.val b.val 0x10) true (toReg d fun v => remU (rd v a) (rd v b)) s)

/-- `min`: signed minimum (R296). -/
def execOpMin (c : CoreId) (g : Guard) (d a b : Reg) (s : State) : Out :=
  .next (issue c g (encG g 0x01 d.val a.val b.val 0x11) true (toReg d fun v => if (rd v a).slt (rd v b) then rd v a else rd v b) s)

/-- `max`: signed maximum (R296). -/
def execOpMax (c : CoreId) (g : Guard) (d a b : Reg) (s : State) : Out :=
  .next (issue c g (encG g 0x01 d.val a.val b.val 0x12) true (toReg d fun v => if (rd v a).slt (rd v b) then rd v b else rd v a) s)

/-- `minu`: unsigned minimum (R296). -/
def execOpMinu (c : CoreId) (g : Guard) (d a b : Reg) (s : State) : Out :=
  .next (issue c g (encG g 0x01 d.val a.val b.val 0x13) true (toReg d fun v => if (rd v a).ult (rd v b) then rd v a else rd v b) s)

/-- `maxu`: unsigned maximum (R296). -/
def execOpMaxu (c : CoreId) (g : Guard) (d a b : Reg) (s : State) : Out :=
  .next (issue c g (encG g 0x01 d.val a.val b.val 0x14) true (toReg d fun v => if (rd v a).ult (rd v b) then rd v b else rd v a) s)

/-- `clz`: leading zeros, R298 (R296). -/
def execOpClz (c : CoreId) (g : Guard) (d a : Reg) (s : State) : Out :=
  .next (issue c g (encG g 0x01 d.val a.val 0 0x15) true (toReg d fun v => BitVec.ofNat 32 (leadingZeros (rd v a) 32)) s)

/-- `popc`: number of 1 bits (R296). -/
def execOpPopc (c : CoreId) (g : Guard) (d a : Reg) (s : State) : Out :=
  .next (issue c g (encG g 0x01 d.val a.val 0 0x16) true (toReg d fun v => BitVec.ofNat 32 (popCount (rd v a))) s)

/-- `bfx`: signed field, R297 (R296). -/
def execOpBfxReg (c : CoreId) (g : Guard) (d a b : Reg) (s : State) : Out :=
  .next (issue c g (encG g 0x01 d.val a.val b.val 0x17) true (toReg d fun v => fieldS (rd v a) (regPos (rd v b)) (regWidth (rd v b))) s)

/-- `bfxu`: unsigned field, R297 (R296). -/
def execOpBfxuReg (c : CoreId) (g : Guard) (d a b : Reg) (s : State) : Out :=
  .next (issue c g (encG g 0x01 d.val a.val b.val 0x18) true (toReg d fun v => fieldU (rd v a) (regPos (rd v b)) (regWidth (rd v b))) s)

/-- `bfi`: field insert, R297 (R296). -/
def execOpBfiReg (c : CoreId) (g : Guard) (d a b : Reg) (s : State) : Out :=
  .next (issue c g (encG g 0x01 d.val a.val b.val 0x19) true (toReg d fun v => fieldIns (rd v d) (rd v a) (regPos (rd v b)) (regWidth (rd v b))) s)

/-- `permr`: bytes under selector wd[11:0], R298 (R296). -/
def execOpPermr (c : CoreId) (g : Guard) (d a b : Reg) (s : State) : Out :=
  .next (issue c g (encG g 0x01 d.val a.val b.val 0x1A) true (toReg d fun v => permute (bits (rd v d).toNat 11 0) (rd v a) (rd v b)) s)

/-- `bfx` with position and width in the immediate; P + W above 32 is illegal (R297). -/
def execOpBfx (c : CoreId) (g : Guard) (d a : Reg) (p w1 : BitVec 5) (s : State) : Out :=
  .next (issue c g (encI g 0x04 d.val a.val (BitVec.ofNat 12 (w1.toNat * 32 + p.toNat)))
    (decide (p.toNat + w1.toNat + 1 ≤ 32)) (toReg d fun v => fieldS (rd v a) p.toNat (w1.toNat + 1)) s)

/-- `bfxu` with position and width in the immediate; P + W above 32 is illegal (R297). -/
def execOpBfxu (c : CoreId) (g : Guard) (d a : Reg) (p w1 : BitVec 5) (s : State) : Out :=
  .next (issue c g (encI g 0x05 d.val a.val (BitVec.ofNat 12 (w1.toNat * 32 + p.toNat)))
    (decide (p.toNat + w1.toNat + 1 ≤ 32)) (toReg d fun v => fieldU (rd v a) p.toNat (w1.toNat + 1)) s)

/-- `bfi` with position and width in the immediate; P + W above 32 is illegal (R297). -/
def execOpBfi (c : CoreId) (g : Guard) (d a : Reg) (p w1 : BitVec 5) (s : State) : Out :=
  .next (issue c g (encI g 0x06 d.val a.val (BitVec.ofNat 12 (w1.toNat * 32 + p.toNat)))
    (decide (p.toNat + w1.toNat + 1 ≤ 32)) (toReg d fun v => fieldIns (rd v d) (rd v a) p.toNat (w1.toNat + 1)) s)

/-- `perm`: bytes of wa and wd under an immediate selector (R298). -/
def execOpPerm (c : CoreId) (g : Guard) (d a : Reg) (sel : BitVec 12) (s : State) : Out :=
  .next (issue c g (encI g 0x07 d.val a.val sel) true (toReg d fun v => permute sel.toNat (rd v a) (rd v d)) s)

/-- `addi` with an immediate operand (R296). -/
def execOpAddi (c : CoreId) (g : Guard) (d a : Reg) (imm : BitVec 12) (s : State) : Out :=
  .next (issue c g (encI g 0x08 d.val a.val imm) true (toReg d fun v => rd v a + sext12 imm) s)

/-- `andi` with an immediate operand (R296). -/
def execOpAndi (c : CoreId) (g : Guard) (d a : Reg) (imm : BitVec 12) (s : State) : Out :=
  .next (issue c g (encI g 0x09 d.val a.val imm) true (toReg d fun v => rd v a &&& sext12 imm) s)

/-- `ori` with an immediate operand (R296). -/
def execOpOri (c : CoreId) (g : Guard) (d a : Reg) (imm : BitVec 12) (s : State) : Out :=
  .next (issue c g (encI g 0x0A d.val a.val imm) true (toReg d fun v => rd v a ||| sext12 imm) s)

/-- `xori` with an immediate operand (R296). -/
def execOpXori (c : CoreId) (g : Guard) (d a : Reg) (imm : BitVec 12) (s : State) : Out :=
  .next (issue c g (encI g 0x0B d.val a.val imm) true (toReg d fun v => rd v a ^^^ sext12 imm) s)

/-- `sli` with an immediate operand (R296). -/
def execOpSli (c : CoreId) (g : Guard) (d a : Reg) (imm : BitVec 12) (s : State) : Out :=
  .next (issue c g (encI g 0x0F d.val a.val imm) true (toReg d fun v => (rd v a <<< 12) ||| imm.zeroExtend 32) s)

/-- `shli` by IMM[4:0] (R296). -/
def execOpShli (c : CoreId) (g : Guard) (d a : Reg) (sh : BitVec 5) (s : State) : Out :=
  .next (issue c g (encI g 0x0C d.val a.val (sh.zeroExtend 12)) true (toReg d fun v => rd v a <<< sh.toNat) s)

/-- `shri` by IMM[4:0] (R296). -/
def execOpShri (c : CoreId) (g : Guard) (d a : Reg) (sh : BitVec 5) (s : State) : Out :=
  .next (issue c g (encI g 0x0D d.val a.val (sh.zeroExtend 12)) true (toReg d fun v => rd v a >>> sh.toNat) s)

/-- `sari` by IMM[4:0] (R296). -/
def execOpSari (c : CoreId) (g : Guard) (d a : Reg) (sh : BitVec 5) (s : State) : Out :=
  .next (issue c g (encI g 0x0E d.val a.val (sh.zeroExtend 12)) true (toReg d fun v => (rd v a).sshiftRight sh.toNat) s)

end Sys2Proof.Machine
end

