-- ==== Sys2Proof/Machine/OpMem.lean ====
section
/-! DEFINITION. Loads, stores and the data stack of Opxus (R281, R283, R289, R302). -/

namespace Sys2Proof.Machine

/-- `ldb` (R302). -/
def execOpLdb (c : CoreId) (g : Guard) (d a : Reg) (imm : BitVec 12) (s : State) : Out :=
  .next (issue c g (encI g 0x10 d.val a.val imm) true (loadBody d a imm 1 fun x => (BitVec.ofNat 8 x).signExtend 32) s)

/-- `ldbu` (R302). -/
def execOpLdbu (c : CoreId) (g : Guard) (d a : Reg) (imm : BitVec 12) (s : State) : Out :=
  .next (issue c g (encI g 0x11 d.val a.val imm) true (loadBody d a imm 1 fun x => BitVec.ofNat 32 x) s)

/-- `ldh` (R302). -/
def execOpLdh (c : CoreId) (g : Guard) (d a : Reg) (imm : BitVec 12) (s : State) : Out :=
  .next (issue c g (encI g 0x12 d.val a.val imm) true (loadBody d a imm 2 fun x => (BitVec.ofNat 16 x).signExtend 32) s)

/-- `ldhu` (R302). -/
def execOpLdhu (c : CoreId) (g : Guard) (d a : Reg) (imm : BitVec 12) (s : State) : Out :=
  .next (issue c g (encI g 0x13 d.val a.val imm) true (loadBody d a imm 2 fun x => BitVec.ofNat 32 x) s)

/-- `ldw` (R302). -/
def execOpLdw (c : CoreId) (g : Guard) (d a : Reg) (imm : BitVec 12) (s : State) : Out :=
  .next (issue c g (encI g 0x14 d.val a.val imm) true (loadBody d a imm 4 fun x => BitVec.ofNat 32 x) s)

/-- `stb`: posts a store of 1 byte (R283, R302). -/
def execOpStb (c : CoreId) (g : Guard) (d a : Reg) (imm : BitVec 12) (s : State) : Out :=
  .next (issue c g (encI g 0x15 d.val a.val imm) true (storeBody d a imm 1) s)

/-- `sth`: posts a store of 2 bytes (R283, R302). -/
def execOpSth (c : CoreId) (g : Guard) (d a : Reg) (imm : BitVec 12) (s : State) : Out :=
  .next (issue c g (encI g 0x16 d.val a.val imm) true (storeBody d a imm 2) s)

/-- `stw`: posts a store of 4 bytes (R283, R302). -/
def execOpStw (c : CoreId) (g : Guard) (d a : Reg) (imm : BitVec 12) (s : State) : Out :=
  .next (issue c g (encI g 0x17 d.val a.val imm) true (storeBody d a imm 4) s)

/-- A posted store is performed at its memory (R283). -/
def execStorePerform (c : CoreId) (s : State) : Out := .next (performOldest c.val s)

/-- The body of `push` (R289). It is illegal while a handler runs (R312). -/
def pushBody (word : Word) (a : Reg) (v : View) (s : State) : Issued :=
  if v.core.trapped then .trap s 0x01 word 0
  else if v.task.ds.toNat < v.task.dlim.toNat + 4 then .trap s 0x0A v.task.ds 0
  else match store v (v.task.ds - 4) (toLe 4 (rd v a).toNat) s with
    | .error (cause, x) => .trap s cause x 0
    | .ok s => .retire (modTask v.t (fun k => { k with ds := k.ds - 4 }) s)

/-- The body of `pop` (R289). -/
def popBody (word : Word) (d : Reg) (v : View) (s : State) : Issued :=
  if v.core.trapped then .trap s 0x01 word 0
  else match load v v.task.ds 4 s with
    | .error (cause, x) => .trap s cause x 0
    | .ok x => .retire (putView (wr { v with task := { v.task with ds := v.task.ds + 4 } } d (BitVec.ofNat 32 x)) s)

/-- `push` (R289). -/
def execOpPush (c : CoreId) (g : Guard) (a : Reg) (s : State) : Out :=
  let w := encG g 0x1C 0 a.val 0 0
  .next (issue c g w true (pushBody w a) s)

/-- `pop` (R289). -/
def execOpPop (c : CoreId) (g : Guard) (d : Reg) (s : State) : Out :=
  let w := encG g 0x1C d.val 0 0 1
  .next (issue c g w true (popBody w d) s)

end Sys2Proof.Machine
end

