-- ==== Sys2Proof/Machine/OpPred.lean ====
section
/-! DEFINITION. Compares and predicate operations of Opxus (R299 to R301). -/

namespace Sys2Proof.Machine

/-- `cmp.cc` (R299, R300); cc 12 to 15 and combine mode 0b11 are illegal. -/
def execOpCmp (c : CoreId) (g : Guard) (cc : BitVec 4) (mode : BitVec 2) (t : PReg) (a b : Reg) (s : State) : Out :=
  .next (issue c g (encG g 0x02 (mode.toNat * 8 + t.val) a.val b.val cc.toNat)
    (decide (cc.toNat < 12 ∧ mode.toNat < 3))
    (toPreds fun v => combine v mode.toNat t (condition cc.toNat (rd v a) (rd v b))) s)

/-- `cmpi.cc` (R299, R300). -/
def execOpCmpi (c : CoreId) (g : Guard) (cc : BitVec 4) (mode : BitVec 2) (t : PReg) (a : Reg) (imm : BitVec 12)
    (s : State) : Out :=
  .next (issue c g (encI g (0x30 + cc.toNat) (mode.toNat * 8 + t.val) a.val imm)
    (decide (cc.toNat < 12 ∧ mode.toNat < 3))
    (toPreds fun v => combine v mode.toNat t (condition cc.toNat (rd v a) (sext12 imm))) s)

/-- A source predicate with its inversion bit (R301). -/
def srcp (v : View) (p : PReg) (n : Bool) : Bool := rdp v p != n

/-- A predicate field with its inversion bit (R301). -/
def predField (p : PReg) (n : Bool) : Nat := p.val + flagBit n 4

/-- `pand` (R301). -/
def execOpPand (c : CoreId) (g : Guard) (pd pa : PReg) (na : Bool) (pb : PReg) (nb : Bool) (s : State) : Out :=
  .next (issue c g (encG g 0x03 pd.val (predField pa na) (predField pb nb) 0) true
    (toPreds fun v => wrp v pd (srcp v pa na && srcp v pb nb)) s)

/-- `por` (R301). -/
def execOpPor (c : CoreId) (g : Guard) (pd pa : PReg) (na : Bool) (pb : PReg) (nb : Bool) (s : State) : Out :=
  .next (issue c g (encG g 0x03 pd.val (predField pa na) (predField pb nb) 1) true
    (toPreds fun v => wrp v pd (srcp v pa na || srcp v pb nb)) s)

/-- `pxor` (R301). -/
def execOpPxor (c : CoreId) (g : Guard) (pd pa : PReg) (na : Bool) (pb : PReg) (nb : Bool) (s : State) : Out :=
  .next (issue c g (encG g 0x03 pd.val (predField pa na) (predField pb nb) 2) true
    (toPreds fun v => wrp v pd (srcp v pa na != srcp v pb nb)) s)

/-- `pmov` (R301). -/
def execOpPmov (c : CoreId) (g : Guard) (pd pa : PReg) (na : Bool) (s : State) : Out :=
  .next (issue c g (encG g 0x03 pd.val (predField pa na) 0 3) true (toPreds fun v => wrp v pd (srcp v pa na)) s)

end Sys2Proof.Machine
end

