-- ==== Sys2Proof/Machine/Slices.lean ====
section
/-! DEFINITION. Tenant slices (R449 to R467): creation and its resources, destruction, and the ports of the slice translation
unit; and the events after which a destruction may go on. -/

namespace Sys2Proof.Machine

/-! ### Slice Create (R451 to R454) -/

/-- CDW10 names a slice up to 256 and its other bits are zero. -/
def sliceDword (d : Word) : Bool := decide (d.toNat ≤ 256)

/-- PASID of a Slice Create block. -/
def scPasid (b : List Byte) : Nat := field b 0 4
/-- QPAIRS. -/
def scQpairs (b : List Byte) : Nat := field b 4 2
/-- VECTORS. -/
def scVectors (b : List Byte) : Nat := field b 6 2
/-- DRAM_MIB. -/
def scDram (b : List Byte) : Nat := field b 8 4
/-- COMMON_MIB. -/
def scCommon (b : List Byte) : Nat := field b 12 4
/-- CAP_GIB. -/
def scCap (b : List Byte) : Nat := field b 16 4
/-- KA_UNITS. -/
def scKa (b : List Byte) : Nat := field b 20 2
/-- SLOTS. -/
def scSlots (b : List Byte) : Nat := field b 22 1
/-- DCTX. -/
def scDctx (b : List Byte) : Nat := field b 23 1
/-- STREAM_BW. -/
def scBw (b : List Byte) : Nat := field b 24 4
/-- WEIGHT. -/
def scWeight (b : List Byte) : Nat := field b 28 2
/-- PORT. -/
def scPort (b : List Byte) : Nat := field b 30 1

/-- The port of a number. -/
def hostPortNo (n : Nat) : PortId := if n = 0 then 0 else 1

/-- Test 1 of R452: the fields are valid, the slice asked for is not in use, the PASID is unique on the port and PASID
Enable is set. -/
def createFields (s : State) (d : Cdw) (b : List Byte) : Bool :=
  let want := d.d10.toNat
  sliceDword d.d10 && decide ({ d with d10 := 0 } = ({} : Cdw))
    && decide (1 ≤ scPasid b ∧ scPasid b < 2 ^ 20 ∧ 1 ≤ scQpairs b ∧ scQpairs b ≤ 16383 ∧ 1 ≤ scVectors b ∧ scVectors b ≤ 2047)
    && decide (scCommon b ≤ 960 ∧ scCommon b ≤ scDram b ∧ scKa b ≤ 512 ∧ scSlots b ≤ 16 ∧ scDctx b ≤ 64)
    && decide (1 ≤ scWeight b ∧ scWeight b ≤ 1000 ∧ (scPort b = 0 ∨ (scPort b = 1 ∧ s.startup.portMode = true)) ∧ field b 31 1 < 2)
    && zeroAt b 32 32
    && (decide (want = 0) || decide ((sliceOf s want).state = .none))
    && !((tenants s).any fun p => decide (p.2.port = scPort b ∧ p.2.pasid = scPasid b))
    && (portOf s (hostPortNo (scPort b))).pasidEnable

/-- The lowest base from `lo` on of `n` numbers below `hi` that are all free. -/
def lowestRange (free : Nat → Bool) (n hi lo : Nat) : Option Nat :=
  ((List.range (hi - lo)).map (· + lo)).find? fun b => decide (b + n ≤ hi) && (List.range n).all fun i => free (b + i)

/-- A queue identifier of a port that no queue and no tenant slice holds (R453). -/
def qidFree (s : State) (p : PortId) (q : Nat) : Bool :=
  (sqOf s p q).isNone && (cqOf s p q).isNone
    && !((tenants s).any fun x => decide (x.2.port = p.val ∧ x.2.qbase ≤ q ∧ q < x.2.qbase + x.2.qpairs))

/-- A vector of a port that no completion queue uses and no tenant slice holds (R453). -/
def vectorFree (s : State) (p : PortId) (v : Nat) : Bool :=
  !((portOf s p).cqs.any fun q => decide (q.2.vector = v))
    && !((tenants s).any fun x => decide (x.2.port = p.val ∧ x.2.vbase ≤ v ∧ v < x.2.vbase + x.2.vectors))

/-- The number, queue base and vector base of a new slice, or the code of the first resource that is short (R452, R453).
-/
def createResources (s : State) (want : Nat) (b : List Byte) : Except Nat (Nat × Nat × Nat) :=
  let p := hostPortNo (scPort b)
  match (if want = 0 then ((List.range 256).map (· + 1)).find? fun i => decide ((sliceOf s i).state = .none) else some want) with
  | none => .error 1
  | some i =>
    match lowestRange (qidFree s p) (scQpairs b) 16385 1 with
    | none => .error 2
    | some q =>
      match lowestRange (vectorFree s p) (scVectors b) 2048 1 with
      | none => .error 3
      | some v =>
        if dramFree s < scDram b then .error 4
        else if capFree s 0 < scCap b * 2 ^ 30 then .error 5
        else if kaFree s < scKa b then .error 6
        else if slotsFree s < scSlots b then .error 7
        else if ctxShare s 0 < scDctx b then .error 8
        else if bwFree s < scBw b then .error 9
        else .ok (i, q, v)

/-- The slice that a create makes (R451, R454): its common memory is zero, and charged. -/
def newSlice (b : List Byte) (qbase vbase now : Nat) : Slice :=
  { state := .active, port := scPort b, pasid := scPasid b, qbase := qbase, qpairs := scQpairs b, vbase := vbase,
    vectors := scVectors b, dramMib := scDram b, dramUsed := scCommon b, commonMib := scCommon b, capGib := scCap b,
    kaUnits := scKa b, slots := scSlots b, dctx := scDctx b, streamBw := scBw b, weight := scWeight b,
    forerunner := bit (field b 31 1) 0, created := now }

/-- Slice Create (R451, R452). -/
def execSliceCreate (h : Sub) (d : Cdw) (data : List Byte) (s : State) : Out :=
  .next (
    let b := fit 64 data
    if !createFields s d b then refuse h sField s
    else match createResources s d.d10.toNat b with
      | .error code => complete h (sVendor 0x87) code 0 [] s
      | .ok (i, q, v) =>
        let s := { setSlice s i (newSlice b q v s.datum) with sliceGen := s.sliceGen + 1 }
        complete h sOk i (q + v * 65536) [] s)

/-! ### Slice Destroy (R466, R467) -/

/-- Namespaces of a slice. -/
def sliceNs (s : State) (i : Nat) : List Nat := (s.namespaces.filter fun n => decide (n.2.slice = i)).map (·.1)

/-- Step 3 of R467: what the slice holds is removed. -/
def dropHoldings (i : Nat) (s : State) : State :=
  let s := (s.sessions.filter fun q => decide (q.2.slice = i)).foldl (fun s q => closeSession q.1 s) s
  let s := (s.tables.filter fun t => decide (t.2.slice = i)).foldl (fun s t => removeTable t.1 s) s
  let s := (s.sets.filter fun p => decide (p.2.slice = i)).foldl (fun s p => dropSet p.1 s) s
  let s := (s.keys.filter fun k => decide (k.2.typ = .derived ∧ k.2.owner = i)).foldl (fun s k => eraseKey k.1 s) s
  let s := (s.results.filter fun r => decide (r.2.slice = i)).foldl (fun s r => freeRecord r.1 s) s
  { s with
    accounts := Tab.erase s.accounts i
    poolTab := s.poolTab.filter fun p => decide (p.2.slice ≠ i)
    progs := s.progs.filter fun p => decide (p.2.slice ≠ i)
    flows := s.flows.filter fun f => decide (f.2.slice ≠ i)
    stu := s.stu.filter fun e => decide (e.slice ≠ i)
    dram := { s.dram with badCompute := s.dram.badCompute.filter fun e => decide (e.2.1 ≠ .common i ∧ e.2.1 ≠ .pool i) } }

/-- Step 4 of R467: its namespaces pass to slice 0, or are deleted. -/
def passNamespaces (i : Nat) (keep : Bool) (s : State) : State :=
  (sliceNs s i).foldl (fun s k => match nsOf s k with
    | none => s
    | some n =>
      if keep then journalPut (.nsChange k n.par2 .altered) (setNs k { n with slice := 0 } s)
      else nsNotice (removeNamespace k n s)) s

/-- Steps 2 to 5 of R467, once every submission queue of the slice is gone and nothing of it runs: its DRAM waits for the
fill of R253. -/
def finishDestroy (i : Nat) (s : State) : State :=
  let x := sliceOf s i
  let p := hostPortNo x.port
  if x.state ≠ .destroying ∨ ((portOf s p).sqs.any fun q => decide (q.2.slice = i)) = true then s
  else
    let alive := s.tasks.filter fun t => decide (t.2.slice = i ∧ t.2.phase ≠ .ended ∧ t.2.phase ≠ .releasing)
    let s := alive.foldl (fun s t => endTask t.1 0xFF s) s
    let ns := sliceNs s i
    if (s.tasks.any fun t => decide (t.2.slice = i)) || ns.any (nsInUse s) || sealsInProgress s ns
        || ns.any fun k => ((nsOf s k).map fun n => n.deleting.isSome).getD false then s
    else
      let s := modPort p (fun y => { y with cqs := y.cqs.filter fun q => decide (q.2.slice ≠ i) }) s
      let s := endResvs (fun r => decide (r.slice = i)) s
      let s := passNamespaces i x.keepNs (dropHoldings i s)
      let s := { s with slices := Tab.erase s.slices i, sliceGen := s.sliceGen + 1, scrubMib := s.scrubMib + x.dramMib }
      match x.destroyer with
      | some h => completeOk h s
      | none => s

/-- Every destruction that can go on does. -/
def finishDestroys (s : State) : State := ((tenants s).map (·.1)).foldl (fun s i => finishDestroy i s) s

/-- What may go on once a command has ended: commands that wait for their turn, and destructions (R169, R467). -/
def goOn (s : State) : State := finishDestroys (nextTurns s)

/-- Slice Destroy (R466, R467): step 1 deletes the slice's submission queues as Delete I/O SQ does (R95). -/
def execSliceDestroy (h : Sub) (d : Cdw) (s : State) : Out :=
  .next (
    let i := d.d10.toNat
    let x := sliceOf s i
    if sliceDword d.d10 = false ∨ i = 0 ∨ 1 < d.d11.toNat ∨ { d with d10 := 0, d11 := 0 } ≠ ({} : Cdw) ∨ x.state ≠ .active then
      refuse h sField s
    else if sealsInProgress s (sliceNs s i) || sealWaits s (sliceNs s i) then s
    else if anySealed s (sliceNs s i) then refuse h (sVendor 0x80) s
    else
      let s := setSlice s i { x with state := .destroying, keepNs := d.d11.getLsbD 0, destroyer := some h }
      let p := hostPortNo x.port
      let qs := ((portOf s p).sqs.filter fun q => decide (q.2.slice = i)).map (·.1)
      finishDestroys (qs.foldl (fun s q => closeQueue p q none s) s))

/-- Memory of destroyed slices has been filled with zeros (R253, R467): it is available again. -/
def execSliceDramFillComplete (mib : Nat) (s : State) : Out := .next { s with scrubMib := s.scrubMib - mib }

/-! ### Events after which a destruction may go on -/

/-- A decided completion is posted (R83). -/
def execCompletionPost (port : PortId) (cqid : Nat) (s : State) : Out := .next (goOn (postCompletion port cqid s))

/-- A release completes (R333 to R335). -/
def execReleaseComplete (task : Nat) (s : State) : Out := .next (goOn (releaseDone task s))

/-- A namespace deletion takes effect (R588). -/
def execNamespaceDeleteEffect (nsid : Nat) (s : State) : Out := .next (goOn (nsDeleteEffect nsid s))

/-- A conventional reset, hot reset, link down or FLR (R64). -/
def execPortReset (port : PortId) (kind : ResetKind) (s : State) : Out := .next (goOn (resetPort port kind s))

/-- PASID Enable of a port, which a write of its control register changes too (R461). -/
def setPasid (port : PortId) (on : Bool) (s : State) : State :=
  if (portOf s port).present then modPort port (fun q => { q with pasidEnable := on }) s else s

/-- PASID Enable of a port changes: requests for its tenant queues pause or resume (R461). -/
def execPasidEnableChange (port : PortId) (on : Bool) (s : State) : Out := .next (setPasid port on s)

/-! ### Ports of the slice translation unit (R463, R465) -/

/-- ST_VA, ST_PA and ST_ATTR as an entry: span, tag and permission. -/
def stEntry (p : FwPorts) : StuEntry :=
  let a := p.stAttr.toNat
  { slice := bits a 8 0, task := if bit a 23 then some (bits a 22 9) else none, va := p.stVa.toNat / 4096 * 4096,
    size := bits a 28 24, write := decide (bits a 31 30 = 3), scratch := bit a 29,
    pa := bits p.stPaHi.toNat 7 0 * 2 ^ 32 + p.stPaLo.toNat / 4096 * 4096 }

/-- Two entries of one tag. -/
def sameTag (a b : StuEntry) : Bool := decide (a.slice = b.slice ∧ a.task = b.task)

/-- A slice that exists; slice 0 does (R449). -/
def sliceExists (s : State) (i : Nat) : Bool := decide (i = 0) || (decide (i ≤ 256) && decide ((sliceOf s i).state ≠ .none))

/-- ST_STAT. -/
def stDone (st : Nat) (s : State) : State := modFw (fun p => { p with stStat := doneStat st }) s

/-- OP 1 of ST_CMD (R465): invalid when PERM or SIZE is, when misaligned, when it overlaps an entry of its tag, or when
its slice does not exist. -/
def stMapCmd (s : State) : State :=
  let e := stEntry s.fwPorts
  let perm := bits s.fwPorts.stAttr.toNat 31 30
  let len := 4096 * 2 ^ e.size
  if (perm = 1 ∨ perm = 3) ∧ e.size ≤ 18 ∧ e.va % len = 0 ∧ (e.scratch = true ∨ e.pa % len = 0) ∧ sliceExists s e.slice = true
      ∧ (s.stu.any fun x => sameTag x e && overlaps x.va (4096 * 2 ^ x.size) e.va len) = false then
    stDone 0 { s with stu := s.stu ++ [e] }
  else stDone 7 s

/-- OP 2 of ST_CMD: unmaps the span at ST_VA of the tag. -/
def stUnmapCmd (s : State) : State :=
  let e := stEntry s.fwPorts
  let mine := fun x : StuEntry => sameTag x e && decide (x.va = e.va)
  if s.stu.any mine then stDone 0 { s with stu := s.stu.filter fun x => !mine x } else stDone 1 s

/-- OP 3 of ST_CMD: unmaps every entry of SLICE. -/
def stUnmapSliceCmd (s : State) : State :=
  let e := stEntry s.fwPorts
  if sliceExists s e.slice then stDone 0 { s with stu := s.stu.filter fun x => decide (x.slice ≠ e.slice) } else stDone 7 s

/-- A write of ST_CMD (R465); an invalid OP has no effect on the port (R10). -/
def stCmd (x : Word) (s : State) : State :=
  match bits x.toNat 31 28 with
  | 1 => stMapCmd s
  | 2 => stUnmapCmd s
  | 3 => stUnmapSliceCmd s
  | _ => s

/-- A value of ST_ATTR whose fields are all defined (R465). -/
def stAttrOk (x : Word) : Bool :=
  x.getLsbD 30 && decide (bits x.toNat 28 24 ≤ 18 ∧ bits x.toNat 8 0 ≤ 256)

/-- Reads of ports 0x0800 to 0x08FF, by offset (R465). -/
def stPortRead (p : Nat) (s : State) : Word :=
  match p with
  | 0x00 => s.fwPorts.stVa
  | 0x01 => s.fwPorts.stPaLo
  | 0x02 => s.fwPorts.stPaHi
  | 0x03 => s.fwPorts.stAttr
  | 0x05 => s.fwPorts.stStat
  | _ => 0

/-- Writes of ports 0x0800 to 0x08FF, by offset (R465); reserved bits read as zero, an undefined value is not stored
(R10). -/
def stPortWrite (p : Nat) (x : Word) (s : State) : State :=
  match p with
  | 0x00 => modFw (fun q => { q with stVa := x &&& 0xFFFFF000#32 }) s
  | 0x01 => modFw (fun q => { q with stPaLo := x &&& 0xFFFFF000#32 }) s
  | 0x02 => modFw (fun q => { q with stPaHi := x &&& 0xFF#32 }) s
  | 0x03 => if stAttrOk x then modFw (fun q => { q with stAttr := x }) s else s
  | 0x04 => stCmd x s
  | _ => s

/-! ### The service window (R69, R70) -/

/-- THERMAL (R70). -/
def thermalWord (s : State) : Nat :=
  let broken := (s.thermal.sensors.filter fun x => decide (x.1 < 64) && x.2.broken).length
  let t2 := regionMask fun r => (region s r).t2 || s.thermal.t2Blocks.any fun b => decide (b.1 / 4 = r)
  let hot := ((composite s).getD 0).fdiv 4
  flagBit s.thermal.t3 31 + flagBit (decide (0 < s.thermal.level)) 30 + flagBit s.thermal.inT1 29 + min 31 broken * 2 ^ 24
    + t2 * 2 ^ 16 + (hot % 65536).toNat

/-- The newest entry of log 0xC4. -/
def newestFault (s : State) : LogEntry := (s.faults.ring.head?).getD {}

/-- The dword at an aligned offset of the service window as port `p` reads it (R69, R70). -/
def windowDword (s : State) (p : PortId) (off : Nat) : Nat :=
  let q := portOf s p
  if off = 0x00 then 1
  else if off = 0x04 then 0x0832 * 65536 + (if Config.vehicleGrade then 0x56 else 0x44) * 256 + Config.step % 256
  else if off = 0x08 then Config.versionWord (activeFr s) % 2 ^ 32
  else if off = 0x0C then Config.versionWord (fit 8 (fwSlot s s.startup.supActive).fr) % 2 ^ 32
  else if 0x10 ≤ off ∧ off < 0x20 then field (fit 16 Config.serial) (off - 0x10) 4
  else if off = 0x20 then s.datum % 2 ^ 32
  else if off = 0x24 then q.hiCapture.getD (s.datum / 2 ^ 32)
  else if off = 0x28 then s.opsec % 2 ^ 32
  else if off = 0x2C then s.opsec / 2 ^ 32 % 256
  else if off = 0x30 then s.pcc
  else if off = 0x34 then s.vcore.vset * 65536 + s.supply.ps
  else if 0x40 ≤ off ∧ off < 0x60 then paceWord s ((off - 0x40) / 4)
  else if off = 0x60 then regionsWord s
  else if off = 0x64 then thermalWord s
  else if off = 0x68 then s.faults.masked * 65536 + s.faults.detected
  else if off = 0x6C then s.faults.newest
  else if off = 0x70 then (newestFault s).datum % 2 ^ 32
  else if off = 0x74 then (newestFault s).datum / 2 ^ 32
  else if off = 0x78 then criticalWarning s
  else 0

/-- A read of the service window: a read of another size than 4 or 8, or misaligned, returns all ones; a 64-bit read at
0x20 returns the whole datum (R69). -/
def windowRead (s : State) (p : PortId) (off size : Nat) : Nat :=
  if size = 4 ∧ off % 4 = 0 then windowDword s p off
  else if size = 8 ∧ off % 8 = 0 then
    if off = 0x20 then s.datum else windowDword s p off + windowDword s p (off + 4) * 2 ^ 32
  else 2 ^ (8 * size) - 1

end Sys2Proof.Machine
end

