-- ==== Sys2Proof/Machine/Ports.lean ====
section
/-! DEFINITION. `in` and `out` (R282, R302), and the ports that have a row of their own: each is the `in` or the `out`
whose base register is w0 and whose immediate is the port's number. -/

namespace Sys2Proof.Machine

/-! ### IO-space (R282) -/

/-- The trap of an access to a port: privilege is checked before the range (R282, R310). -/
def portTrap (v : View) (p : Nat) : Option Nat :=
  let range := p / 256
  if !viewFw v && (range = 0x08 || range = 0x09 || range = 0x0A || range = 0x0F) then some 0x03
  else if range ≤ 0x0A ∨ range = 0x0F then none
  else some 0x04

/-- The value of port `p` and the state after the read's side effect (R282). `upsets` are the rows that become
corrupt before a KA_LOOK (R401). -/
def portRead (v : View) (p : Nat) (upsets : List (Nat × Bool × KeyUpset)) (s : State) : Word × State :=
  let o := p % 256
  match p / 256 with
  | 0x00 => taskPortRead v o s
  | 0x01 => poolPortRead v o s
  | 0x02 => dmaPortRead v o s
  | 0x03 => dgPortRead v o s
  | 0x04 => if o = 0x2C then kaLook v upsets s else keyPortRead v o s
  | 0x05 => cpPortRead v o s
  | 0x06 => fsPortRead v o s
  | 0x07 => datumPortRead v o s
  | 0x08 => (stPortRead o s, s)
  | 0x09 => (ksPortRead o s, s)
  | 0x0A => (svPortRead o s, s)
  | 0x0F => (trPortRead v o s, s)
  | _ => (0, s)

/-- The state after a write of port `p` (R282). -/
def portWrite (v : View) (p : Nat) (x : Word) (s : State) : State :=
  let o := p % 256
  match p / 256 with
  | 0x00 => taskPortWrite v o x s
  | 0x01 => poolPortWrite v o x s
  | 0x02 => dmaPortWrite v o x s
  | 0x03 => dgPortWrite v o x s
  | 0x04 => keyPortWrite v o x s
  | 0x05 => cpPortWrite v o x s
  | 0x06 => fsPortWrite v o x s
  | 0x07 => datumPortWrite v o x s
  | 0x08 => stPortWrite o x s
  | 0x09 => ksPortWrite o x s
  | 0x0A => svPortWrite o x s
  | 0x0F => trPortWrite v o x s
  | _ => s

/-- The view after a port's effect; none when the effect took the task from its core. -/
def stillRunning (v : View) (s : State) : Option View :=
  match taskOf s v.t with
  | some k => if (coreOf s v.c).run = some v.t then some { v with task := k, core := coreOf s v.c } else none
  | none => none

/-- The body of `in`: D receives the port's value (R302). An access whose effect took the task from its core writes
nothing. -/
def inBody (d a : Reg) (imm : BitVec 12) (upsets : List (Nat × Bool × KeyUpset)) (v : View) (s : State) : Issued :=
  let p := portNo v a imm
  match portTrap v p with
  | some cause => .trap s cause (BitVec.ofNat 32 p) 0
  | none =>
    match v.task.storeError with
    | some w => .trap s 0x07 w 0
    | none =>
      let r := portRead v p upsets s
      match stillRunning v r.2 with
      | some v => .retire (putView (wr v d r.1) r.2)
      | none => .done r.2

/-- The body of `out` once every earlier store has been performed (R284, R302). -/
def outBody (x : View → Word) (a : Reg) (imm : BitVec 12) (v : View) (s : State) : Issued :=
  let p := portNo v a imm
  match portTrap v p with
  | some cause => .trap s cause (BitVec.ofNat 32 p) 0
  | none => afterStores v s fun v s =>
      let s := portWrite v p (x v) s
      match stillRunning v s with
      | some _ => .retire s
      | none => .done s

/-- Issues `in d, [a + imm]`. -/
def doIn (c : CoreId) (g : Guard) (d a : Reg) (imm : BitVec 12) (upsets : List (Nat × Bool × KeyUpset)) (s : State) : State :=
  issue c g (encI g 0x18 d.val a.val imm) true (inBody d a imm upsets) s

/-- Issues `out d, [a + imm]` with the value `x`. -/
def doOut (c : CoreId) (g : Guard) (d a : Reg) (imm : BitVec 12) (x : View → Word) (s : State) : State :=
  issue c g (encI g 0x19 d.val a.val imm) true (outBody x a imm) s

/-- `in` (R302). -/
def execOpIn (c : CoreId) (g : Guard) (d a : Reg) (imm : BitVec 12) (s : State) : Out := .next (doIn c g d a imm [] s)

/-- `out` (R302). -/
def execOpOut (c : CoreId) (g : Guard) (d a : Reg) (imm : BitVec 12) (s : State) : Out :=
  .next (doOut c g d a imm (fun v => rd v d) s)

/-- `in rd, [w0 + port]`. -/
def inPort (c : CoreId) (d : Reg) (port : BitVec 12) (s : State) : State := doIn c Guard.always d 0 port [] s

/-- `out rs, [w0 + port]`. -/
def outPort (c : CoreId) (rs : Reg) (port : BitVec 12) (s : State) : State :=
  doOut c Guard.always rs 0 port (fun v => rd v rs) s

/-- `out` of the command word `x`, which some register holds, to a port at base w0. -/
def outCommand (c : CoreId) (port : BitVec 12) (x : Nat) (s : State) : State :=
  doOut c Guard.always 0 0 port (fun _ => BitVec.ofNat 32 x) s

/-! ### Datum, tasks and pools -/

/-- A read of DT_NOW_LO (R28). -/
def execDtNowLoRead (c : CoreId) (d : Reg) (s : State) : Out := .next (inPort c d 0x700 s)

/-- A write of DT_ALARM_CTL (R30, R31). -/
def execDtAlarmCtlWrite (c : CoreId) (rs : Reg) (s : State) : Out := .next (outPort c rs 0x704 s)

/-- A write of TK_CLRF (R341). -/
def execTkClrfWrite (c : CoreId) (rs : Reg) (s : State) : Out := .next (outPort c rs 0x002 s)

/-- A read of SP_GO (R343). -/
def execSpGoRead (c : CoreId) (d : Reg) (s : State) : Out := .next (inPort c d 0x018 s)

/-- A read of PL_CREATE (R345). -/
def execPlCreateRead (c : CoreId) (d : Reg) (s : State) : Out := .next (inPort c d 0x152 s)

/-- A write of PL_DESTROY (R345). -/
def execPlDestroyWrite (c : CoreId) (rs : Reg) (s : State) : Out := .next (outPort c rs 0x153 s)

/-- A read of PL_ALLOCn (R346). -/
def execPlAllocRead (c : CoreId) (d : Reg) (n : Fin 64) (s : State) : Out :=
  .next (inPort c d (BitVec.ofNat 12 (0x100 + n.val)) s)

/-- A write of PL_FREE (R347). -/
def execPlFreeWrite (c : CoreId) (rs : Reg) (s : State) : Out := .next (outPort c rs 0x140 s)

/-- A write of PL_SHARE (R348). -/
def execPlShareWrite (c : CoreId) (rs : Reg) (s : State) : Out := .next (outPort c rs 0x141 s)

/-- A write of PL_QUERY (R353). -/
def execPlQueryWrite (c : CoreId) (rs : Reg) (s : State) : Out := .next (outPort c rs 0x143 s)

/-! ### Engines, key arrays -/

/-- A read of DMA_GO (R376). -/
def execDmaGoRead (c : CoreId) (d : Reg) (s : State) : Out := .next (inPort c d 0x205 s)

/-- A read of CP_GO (R377). -/
def execCpGoRead (c : CoreId) (d : Reg) (s : State) : Out := .next (inPort c d 0x505 s)

/-- A read of FS_GO (R379). -/
def execFsGoRead (c : CoreId) (d : Reg) (s : State) : Out := .next (inPort c d 0x606 s)

/-- A read of an engine's STAT port (R374): one of DMA_STAT0 to 3, CP_STAT0, CP_STAT1 and FS_STAT. -/
def execEngineStatRead (c : CoreId) (d : Reg) (port : BitVec 12) (s : State) : Out := .next (inPort c d port s)

/-- A read of KA_LOOK (R408); `upsets` are rows that become corrupt before it or its reissue (R401). -/
def execKaLookRead (c : CoreId) (d : Reg) (upsets : List (Nat × Bool × KeyUpset)) (s : State) : Out :=
  .next (doIn c Guard.always d 0 0x42C upsets s)

/-- A read of KA_INSERT (R409). -/
def execKaInsertRead (c : CoreId) (d : Reg) (s : State) : Out := .next (inPort c d 0x42D s)

/-- A read of KA_DELETE (R409). -/
def execKaDeleteRead (c : CoreId) (d : Reg) (s : State) : Out := .next (inPort c d 0x42E s)

/-! ### Digest engine and key store (R422, R447) -/

/-- A word for DG_CTRL (R422). -/
def dgCtrlWord (cmd : Nat) (alg : BitVec 4) (hmac tokey : Bool) (flag : BitVec 5) : Nat :=
  cmd * 2 ^ 28 + alg.toNat * 2 ^ 24 + flagBit hmac 23 + flagBit tokey 22 + flag.toNat

/-- OPEN (R424). -/
def execDgOpen (c : CoreId) (alg : BitVec 4) (hmac tokey : Bool) (flag : BitVec 5) (s : State) : Out :=
  .next (outCommand c 0x300 (dgCtrlWord 1 alg hmac tokey flag) s)

/-- FINAL (R426). -/
def execDgFinal (c : CoreId) (alg : BitVec 4) (hmac tokey : Bool) (flag : BitVec 5) (s : State) : Out :=
  .next (outCommand c 0x300 (dgCtrlWord 2 alg hmac tokey flag) s)

/-- CLOSE (R427). -/
def execDgClose (c : CoreId) (alg : BitVec 4) (hmac tokey : Bool) (flag : BitVec 5) (s : State) : Out :=
  .next (outCommand c 0x300 (dgCtrlWord 3 alg hmac tokey flag) s)

/-- SAVE (R434). -/
def execDgSave (c : CoreId) (alg : BitVec 4) (hmac tokey : Bool) (flag : BitVec 5) (s : State) : Out :=
  .next (outCommand c 0x300 (dgCtrlWord 4 alg hmac tokey flag) s)

/-- RESTORE (R434). -/
def execDgRestore (c : CoreId) (alg : BitVec 4) (hmac tokey : Bool) (flag : BitVec 5) (s : State) : Out :=
  .next (outCommand c 0x300 (dgCtrlWord 5 alg hmac tokey flag) s)

/-- ERASEKEY (R432). -/
def execDgEraseKey (c : CoreId) (alg : BitVec 4) (hmac tokey : Bool) (flag : BitVec 5) (s : State) : Out :=
  .next (outCommand c 0x300 (dgCtrlWord 6 alg hmac tokey flag) s)

/-- A write of DG_DATA (R424, R425). -/
def execDgDataWrite (c : CoreId) (rs : Reg) (s : State) : Out := .next (outPort c rs 0x304 s)

/-- A read of DG_RESULTi (R427). -/
def execDgResultRead (c : CoreId) (d : Reg) (i : Fin 16) (s : State) : Out :=
  .next (inPort c d (BitVec.ofNat 12 (0x310 + i.val)) s)

/-- KS_CMD OP 1 (R447). -/
def execKsGenerate (c : CoreId) (owner : BitVec 9) (s : State) : Out :=
  .next (outCommand c 0x903 (2 ^ 28 + owner.toNat) s)

/-- KS_CMD OP 2 (R447). -/
def execKsErase (c : CoreId) (s : State) : Out := .next (outCommand c 0x903 (2 * 2 ^ 28) s)

/-! ### Slice translation, supervisor mailbox, trace (R465, R515, R516) -/

/-- ST_CMD OP 1 (R465). -/
def execStMap (c : CoreId) (s : State) : Out := .next (outCommand c 0x804 (2 ^ 28) s)

/-- ST_CMD OP 2 (R465). -/
def execStUnmap (c : CoreId) (s : State) : Out := .next (outCommand c 0x804 (2 * 2 ^ 28) s)

/-- ST_CMD OP 3 (R465). -/
def execStUnmapSlice (c : CoreId) (s : State) : Out := .next (outCommand c 0x804 (3 * 2 ^ 28) s)

/-- SV_CMD OP 1 (R515). -/
def execSvEclipse (c : CoreId) (site : BitVec 16) (s : State) : Out :=
  .next (outCommand c 0xA00 (2 ^ 28 + site.toNat) s)

/-- SV_CMD OP 2 (R515). -/
def execSvRelight (c : CoreId) (site : BitVec 16) (s : State) : Out :=
  .next (outCommand c 0xA00 (2 * 2 ^ 28 + site.toNat) s)

/-- SV_CMD OP 3 (R515). -/
def execSvRecord (c : CoreId) (cls : BitVec 8) (site : BitVec 16) (s : State) : Out :=
  .next (outCommand c 0xA00 (3 * 2 ^ 28 + cls.toNat * 2 ^ 16 + site.toNat) s)

/-- SV_CMD OP 4 (R515). -/
def execSvRetire (c : CoreId) (site : BitVec 16) (s : State) : Out :=
  .next (outCommand c 0xA00 (4 * 2 ^ 28 + site.toNat) s)

/-- A write of TR_DATA (R516). -/
def execTrDataWrite (c : CoreId) (rs : Reg) (s : State) : Out := .next (outPort c rs 0xF01 s)

end Sys2Proof.Machine
end

