-- ==== Sys2Proof/Machine/Registers.lean ====
section
/-! DEFINITION. The registers of a port as the host reads and writes them (R62 to R72): PCI configuration, BAR0 with the
controller registers and the doorbells, BAR2 with the MSI-X table and the service window. -/

namespace Sys2Proof.Machine

/-! ### Configuration space (R62, R63, R65) -/

/-- Strap fields SSVID and SSID; without a strap image the device's own identifiers. -/
def subsystemWord (s : State) : Nat :=
  match s.startup.strap with
  | some t => t.ssid % 65536 * 65536 + t.ssvid % 65536
  | none => 0x0832 * 65536 + Config.vendorId % 65536

/-- Low half of a 64-bit, non-prefetchable memory BAR at an address. -/
def barLow (a : Nat) : Nat := a % 2 ^ 32 + 4

/-- A configuration register of a port (R62, R63, R65). Bits that the spec leaves to PCIe are free constants (assumption
120). -/
def configRead (s : State) (q : HostPort) (reg : ConfigReg) : Nat :=
  let c := q.pci
  match reg with
  | .ids => 0x0832 * 65536 + Config.vendorId % 65536
  | .classCode => 0x010802 * 256 + Config.pciRevision % 256
  | .bar n => [barLow c.bar0, c.bar0 / 2 ^ 32, barLow c.bar2, c.bar2 / 2 ^ 32].getD n.val 0
  | .rom => 0
  | .subsystem => subsystemWord s
  | .interrupt => 0
  | .deviceCaps => Config.pciDeviceCaps / 8 * 8 % 2 ^ 28 + 2 + 2 ^ 28
  | .deviceControl => c.mps * 2 ^ 5 + c.mrrs * 2 ^ 12
  | .linkCaps => Config.pciLinkCaps / 4096 * 4096 % 2 ^ 32 + (if s.startup.portMode then 8 else 16) * 16 + 4 + 2 * 2 ^ 10
  | .linkControl => flagBit c.aspmL1 1
  | .msixControl => 2047
  | .ecrcControl => flagBit true 5 + flagBit c.ecrcGen 6 + flagBit true 7 + flagBit c.ecrcCheck 8
  | .pasidCaps => 20 * 2 ^ 8
  | .pasidControl => flagBit q.pasidEnable 0

/-- A BAR address: the half that is written replaces its own, and the address is a multiple of the size (R65). -/
def barAddress (old size : Nat) (high : Bool) (v : Nat) : Nat :=
  if high then old % 2 ^ 32 + v % 2 ^ 32 * 2 ^ 32 else old / 2 ^ 32 * 2 ^ 32 + v % 2 ^ 32 / size * size

/-- A write of a configuration register (R63, R65, R461): payload sizes up to 512 B and read requests up to 4,096 B are
kept; what is not supported reads as zero. -/
def configWrite (p : PortId) (reg : ConfigReg) (v : Nat) (s : State) : State :=
  let put := fun f : PciConfig → PciConfig => modPort p (fun q => { q with pci := f q.pci }) s
  match reg with
  | .bar n =>
    if n.val < 2 then put fun c => { c with bar0 := barAddress c.bar0 (2 ^ 27) (n.val = 1) v }
    else if n.val < 4 then put fun c => { c with bar2 := barAddress c.bar2 (2 ^ 24) (n.val = 3) v }
    else s
  | .deviceControl => put fun c => { c with mps := if bits v 7 5 ≤ 2 then bits v 7 5 else c.mps
                                            mrrs := if bits v 14 12 ≤ 5 then bits v 14 12 else c.mrrs }
  | .linkControl => put fun c => { c with aspmL1 := bit v 1 }
  | .ecrcControl => put fun c => { c with ecrcGen := bit v 6, ecrcCheck := bit v 8 }
  | .pasidControl => setPasid p (bit v 0) s
  | _ => s

/-! ### BAR0 and BAR2 (R65 to R72) -/

/-- CAP (R71). -/
def capValue : Nat := 0x08400029_0803FFFF

/-- CC as it reads. -/
def ccWord (q : HostPort) : Nat :=
  flagBit q.en 0 + q.css % 8 * 2 ^ 4 + q.mps % 16 * 2 ^ 7 + q.ams % 8 * 2 ^ 11 + q.shn % 4 * 2 ^ 14
    + q.iosqes % 16 * 2 ^ 16 + q.iocqes % 16 * 2 ^ 20

/-- CSTS: RDY, CFS and SHST; PP and NSSRO read 0 (R72). -/
def cstsWord (q : HostPort) : Nat := flagBit q.rdy 0 + flagBit q.cfs 1 + q.shst % 4 * 4

/-- A dword of the controller registers (R71, R72): the memory buffer, boot partition and persistent memory registers read
zero, and so does what is reserved. -/
def controllerDword (q : HostPort) (off : Nat) : Nat :=
  match off with
  | 0x00 => capValue % 2 ^ 32
  | 0x04 => capValue / 2 ^ 32
  | 0x08 => 0x00020000
  | 0x14 => ccWord q
  | 0x1C => cstsWord q
  | 0x24 => q.aqa % 2 ^ 32
  | 0x28 => q.asq % 2 ^ 32
  | 0x2C => q.asq / 2 ^ 32
  | 0x30 => q.acq % 2 ^ 32
  | 0x34 => q.acq / 2 ^ 32
  | 0x68 => Config.crto % 2 ^ 32
  | _ => 0

/-- A dword of BAR0: doorbell pages and what is reserved read zero (R65, R67). -/
def bar0Dword (q : HostPort) (off : Nat) : Nat := if off < 0x1000 then controllerDword q off else 0

/-- A dword of the MSI-X table. -/
def msixTableDword (v : Vector') (i : Nat) : Nat :=
  match i with
  | 0 => v.addr % 2 ^ 32
  | 1 => v.addr / 2 ^ 32
  | 2 => v.data
  | _ => flagBit v.masked 0

/-- A dword of the MSI-X pending bit array. -/
def pendingDword (q : HostPort) (n : Nat) : Nat :=
  ((List.range 32).map fun i => flagBit (Tab.getD q.vectors (32 * n + i) {}).pending i).sum

/-- A dword of BAR2 outside the service window (R68). -/
def bar2Dword (q : HostPort) (off : Nat) : Nat :=
  if off < 0x8000 then msixTableDword (Tab.getD q.vectors (off / 16) {}) (off % 16 / 4)
  else if off < 0x8100 then pendingDword q ((off - 0x8000) / 4)
  else 0

/-- `size` bytes at an offset of registers that are read by dwords. -/
def bytesOf (dword : Nat → Nat) (off size : Nat) : Nat :=
  ofLe ((List.range size).map fun i => BitVec.ofNat 8 (dword ((off + i) / 4 * 4) / 2 ^ (8 * ((off + i) % 4))))

/-- What a read of a BAR returns (R65 to R72); BAR1 and BAR3 are upper halves, and the others are not implemented. -/
def barRead (s : State) (p : PortId) (n off size : Nat) : Nat :=
  let q := portOf s p
  if n = 0 then bytesOf (bar0Dword q) off size
  else if n = 2 then
    if 0x100000 ≤ off ∧ off < 0x100100 then windowRead s p (off - 0x100000) size else bytesOf (bar2Dword q) off size
  else 2 ^ (8 * size) - 1

/-- The read is the 32-bit one of DATUM_LO that captures DATUM_HI (R69). -/
def capturesHi (space : RegSpace) (off size : Nat) : Bool := decide (space = .bar 2 ∧ off = 0x100020 ∧ size = 4)

/-- A read of a register of a port; the row's own case is a 32-bit read of DATUM_LO, which captures bits [63:32] for
DATUM_HI. Any other read ends the capture: DATUM_LO was then not read last (R69). -/
def execSwDatumLoRead (port : PortId) (space : RegSpace) (off size : Nat) (s : State) : Out :=
  .next (if !(portOf s port).present then s
    else
      let v := match space with
        | .config reg => configRead s (portOf s port) reg
        | .bar n => barRead s port n.val off size
      modPort port (fun q => { q with
        lastRead := v, hiCapture := if capturesHi space off size then some (s.datum / 2 ^ 32) else none }) s)

/-- A write to BAR0 or BAR2 (R65 to R68). Other writes have no effect. -/
def barWrite (p : PortId) (n off size v : Nat) (s : State) : State :=
  if off % 4 ≠ 0 then s
  else if n = 0 then
    if off < 0x1000 then controllerWrite p off size v s
    else if off < 0x4002000 then
      let qid := (off - 0x1000) / 4096
      if off % 4096 = 0 then sqTail p qid (v % 65536) s
      else if off % 4096 = 0x800 then cqHead p qid (v % 65536) s
      else s
    else s
  else if n = 2 ∧ off < 0x8000 then
    let s := msixDword p off (v % 2 ^ 32) s
    if size = 8 then msixDword p (off + 4) (v / 2 ^ 32 % 2 ^ 32) s else s
  else s

/-- A write of a register of a port. -/
def execRegisterWrite (port : PortId) (space : RegSpace) (off size : Nat) (v : Nat) (s : State) : Out :=
  .next (
    if !(portOf s port).present then s
    else match space with
      | .config reg => configWrite port reg v s
      | .bar n => barWrite port n.val off size v s)

end Sys2Proof.Machine
end

