-- ==== Sys2Proof/Machine/Relay.lean ====
section
/-! DEFINITION. Slice Admin Relay (R456 to R458). -/

namespace Sys2Proof.Machine

/-- The relayed command returns data to the host, so that relay 0xC6 carries it (R456). -/
def returnsData (c : Relayed) : Bool :=
  match c with
  | .identify _ _ _ _ | .getLogPage _ _ _ _ _ _ | .getFeatures _ _ _ => true
  | .other op => decide (op % 4 = 2)
  | _ => false

/-- The relay fields are valid and the target slice is active (R456, R457). -/
def relayFields (s : State) (d : Cdw) : Bool :=
  sliceDword d.d10 && decide (d.d10 ≠ 0 ∧ d.d11 = 0 ∧ d.d12.toNat % 8 = 0 ∧ d.d14 = 0 ∧ d.d15 = 0)
    && decide ((sliceOf s d.d10.toNat).state = .active)

/-- Set Features Number of Queues for a slice: at most the allotment (R458). -/
def sliceQueues (h : Sub) (sl nsq ncq : Nat) (s : State) : State :=
  if 65535 ≤ nsq ∨ 65535 ≤ ncq then refuse h sField s
  else
    let n := (sliceOf s sl).qpairs - 1
    complete h sOk (min nsq n + min ncq n * 65536) 0 [] s

/-- Abort for a slice: of its own queues only (R458). -/
def sliceAbort (h : Sub) (sl : Nat) (p : PortId) (sq : Nat) (s : State) : State :=
  if ((sqOf s p sq).map (·.slice)) = some sl then abort h s else refuse h (sCmd 0x01) s

/-- Carries out a relayed command as if slice `sl` of port `p` had issued it (R457, R458). -/
def relayed (h : Sub) (sl : Nat) (p : PortId) (c : Relayed) (s : State) : State :=
  match c with
  | .identify cns nsid cntid csi => identify h sl p cns nsid cntid csi s
  | .namespaceCreate q => nsCreate h sl q s
  | .namespaceDelete nsid => nsDelete h sl nsid s
  | .namespaceAttach nsid ctrls => nsAttach true h sl nsid ctrls s
  | .namespaceDetach nsid ctrls => nsAttach false h sl nsid ctrls s
  | .formatNvm nsid lbaf ses parity => nsFormat h sl nsid lbaf ses parity s
  | .createCq qid size pc ien iv => createCq h sl p qid size pc ien iv s
  | .createSq qid size pc prio cqid => createSq h sl p qid size pc prio cqid s
  | .deleteSq qid => deleteSq h sl p qid s
  | .deleteCq qid => deleteCq h sl p qid s
  | .abort sq _ => sliceAbort h sl p sq s
  | .getLogPage nsid lid lsp rae off len => getLog h sl p nsid lid lsp rae off len s
  | .getFeatures fid sel v => getFeatures h sl p fid sel v s
  | .setNumberOfQueues nsq ncq => sliceQueues h sl nsq ncq s
  | .setInterruptCoalescing time thr => setCoalescing h false time thr s
  | .setInterruptVectorConfig iv cd => setVectorConfig h sl p iv cd s
  | .setOtherFeature _ => refuse h sField s
  | .programLoad d data => programLoad h sl d data s
  | .programUnload d => programUnload h sl d s
  | .streamReserve nsid d data => streamReserve h sl nsid d data s
  | .streamRelease nsid d => streamRelease h sl nsid d s
  | .extentSeal nsid _ data => extentSeal h sl nsid data s
  | .keyArrayConfigure d data => keyConfigure h sl d data s
  | .patternSetLoad d data => patternSetLoad h sl d data s
  | .other _ => refuse h sOpcode s

/-- A relay: checked first, then the relayed command runs, with its port the slice's (R456 to R458). -/
def relay (reads : Bool) (h : Sub) (d : Cdw) (cmd : Relayed) (s : State) : State :=
  if !relayFields s d || decide (returnsData cmd ≠ reads) then refuse h sField s
  else
    let sl := d.d10.toNat
    relayed h sl (hostPortNo (sliceOf s sl).port) cmd s

/-- Slice Admin Relay (R456). -/
def execSliceAdminRelay (h : Sub) (d : Cdw) (cmd : Relayed) (s : State) : Out := .next (relay false h d cmd s)

/-- Slice Admin Relay with read data (R456). -/
def execSliceAdminRelayRead (h : Sub) (d : Cdw) (cmd : Relayed) (s : State) : Out := .next (relay true h d cmd s)

end Sys2Proof.Machine
end

