-- ==== Sys2Proof/Machine/Startup.lean ====
section
/-! DEFINITION. Start-up (R542 to R554): straps, strap image, boot slots, training, discovery, replay, what is restored;
and VAON and VCORE coming and going (R23, R576). -/

namespace Sys2Proof.Machine

/-! ### The strap image (R489, R549, R550) -/

/-- `x` lies from `a` to `b`. -/
def within (x a b : Nat) : Bool := decide (a ≤ x ∧ x ≤ b)

/-- The image in force when no copy is valid: zeros, all but the defaults outside their ranges. -/
def noStrap : StrapImage :=
  { ssvid := Config.vendorId, ssid := 0x0832, refclk := 0, pmbusAddr := 0, smbusAddr := 0, thEn := 0, huVfull := 0, huVmin := 0,
    huEff := 0, huPdump := 0, huCrated := 0, huItest := 0, vinDiv := 0, vinWarn := 0, vinReset := 0, opPct := 0, drWidth := 0,
    drDensity := 0, drRanks := 0, drMaxrate := 0, drRhth := 0, drTiming := [], nfMaxrate := 0, nfIf := 2, nfOdt := 0,
    nfSlcPfx := 0, nfTempFa := 0, nfDelta := 0, nfRetryFa := 0 }

/-- The fields of a copy of the strap image (R549). -/
def strapFields (b : List Byte) : StrapImage :=
  { ssvid := field b 16 2, ssid := field b 18 2, refclk := field b 20 1, pmbusAddr := field b 21 1, smbusAddr := field b 22 1,
    thEn := field b 23 1, huVfull := field b 24 2, huVmin := field b 26 2, huEff := field b 28 1, huPdump := field b 29 1,
    huCrated := field b 30 2, huItest := field b 32 2, vinDiv := field b 34 2, vinWarn := field b 36 2,
    vinReset := field b 38 2, opPct := field b 40 1, drWidth := field b 48 1, drDensity := field b 49 1,
    drRanks := field b 50 1, drMaxrate := field b 52 2, drRhth := field b 54 2,
    drTiming := (List.range 16).map fun i => field b (56 + 2 * i) 2, nfMaxrate := field b 128 2, nfIf := field b 130 1,
    nfOdt := field b 131 1, nfSlcPfx := field b 132 1, nfTempFa := field b 133 1, nfDelta := field b 134 1,
    nfRetryFa := field b 135 1 }

/-- A copy that can be used: MAGIC, FORMAT, LENGTH, and the CRC-32C over bytes 16 to 1,023 (R549). -/
def strapValid (b : List Byte) : Bool :=
  decide (field b 0 4 = 0x50534E59 ∧ field b 4 2 = 1 ∧ field b 6 2 = 1024)
    && decide (field b 12 4 = (crc32c ((b.drop 16).take 1008)).toNat)

/-- Copy 0 or 1 of the strap image in the NOR, when it can be used (R543, R549). -/
def strapCopy (i : StartupInput) (k : Nat) : Option (List Byte) :=
  let b := Memory.readBytes i.nor ((norArea .strap).1 + 0x10000 * k) 1024
  if strapValid b then some b else none

/-- The copy that is used: the one with the higher SEQ (R549). -/
def strapUsed (i : StartupInput) : Option StrapImage :=
  (match strapCopy i 0, strapCopy i 1 with
    | some a, some b => some (if field a 8 4 < field b 8 4 then b else a)
    | a, b => a.or b).map strapFields

/-- A field with its default: the value in force, and the offset when it is replaced. -/
def orDefault (ok : Bool) (x d offset : Nat) : Nat × List Nat := if ok then (x, []) else (d, [offset])

/-- Offsets of the HU_ fields outside their ranges. -/
def badHuFields (t : StrapImage) : List Nat :=
  ([(within t.huVfull 1600 3500, 24), (within t.huVmin 600 1500, 26), (within t.huEff 50 98, 28), (within t.huPdump 5 120, 29),
    (within t.huCrated 10 65535, 30), (within t.huItest 50 400, 32)].filter fun f => !f.1).map (·.2)

/-- The image as it applies, and the offsets of the fields outside their ranges that are recorded (R550). VIN_RESET is
judged against the VIN_WARN in force (R489). -/
def strapInForce (copy : Option StrapImage) : StrapImage × List Nat :=
  let t := copy.getD noStrap
  let none' := if copy.isNone then [16, 18, 20, 23] else []
  let pm := orDefault (within t.pmbusAddr 0x08 0x77) t.pmbusAddr 0x40 21
  let sm := orDefault (within t.smbusAddr 0x08 0x77) t.smbusAddr 0x1D 22
  let dv := orDefault (within t.vinDiv 11200 20000) t.vinDiv 12500 34
  let wn := orDefault (within t.vinWarn 800 1500) t.vinWarn 1080 36
  let rs := orDefault (within t.vinReset 700 (wn.1 - 100)) t.vinReset (min 900 (wn.1 - 100)) 38
  let op := orDefault (within t.opPct 7 50) t.opPct 12 40
  let rh := orDefault (within t.drRhth 256 16384) t.drRhth 2048 54
  ({ t with pmbusAddr := pm.1, smbusAddr := sm.1, vinDiv := dv.1, vinWarn := wn.1, vinReset := rs.1, opPct := op.1,
            drRhth := rh.1 },
   none' ++ pm.2 ++ sm.2 ++ badHuFields t ++ dv.2 ++ wn.2 ++ rs.2 ++ op.2 ++ rh.2)

/-- The DR_ and NF_ fields without a default lie within their ranges (R549). -/
def mediaFieldsOk (t : StrapImage) : Bool :=
  decide ((t.drWidth = 4 ∨ t.drWidth = 8 ∨ t.drWidth = 16)
    ∧ (t.drDensity = 8 ∨ t.drDensity = 16 ∨ t.drDensity = 24 ∨ t.drDensity = 32)
    ∧ (t.drRanks = 1 ∨ t.drRanks = 2) ∧ (t.drMaxrate = 4800 ∨ t.drMaxrate = 5600 ∨ t.drMaxrate = 6400)
    ∧ t.drTiming.length = 16 ∧ t.nfIf < 2)
  && (t.drTiming.all fun x => within x 1 65535) && within t.nfMaxrate 400 2400 && within t.nfDelta 1 31

/-- A strap field is replaced, or makes the bank count as covering nothing: a detected fault (R550). -/
def recordStrap (s : State) (offset : Nat) : State :=
  recordDetected { level := 3, cls := 0x18, site := chipUnit 15, aux0 := offset } s

/-- Applies the strap image (R489, R550): the levels of the supply, the row-disturbance threshold, the hold-up bank. The
first measurement falls due (R117). -/
def applyStrap (copy : Option StrapImage) (s : State) : State :=
  let r := strapInForce copy
  let t := r.1
  let s := { s with
    startup := { s.startup with strap := some t, huValid := (badHuFields t).isEmpty }
    supply := { s.supply with vinDiv := t.vinDiv, vinWarn := t.vinWarn, vinReset := t.vinReset }
    holdUp := { s.holdUp with meas := none, writeThrough := true, wtOther := false, warning := false,
                              dueAt := s.opsec + 86400, scheduled := (badHuFields t).isEmpty,
                              step := if (badHuFields t).isEmpty then .waiting s.datum else .idle } }
  startCharger (r.2.foldl recordStrap s)

/-! ### The field book (R534, R535) -/



/-- The content that start-up takes from the slots: a clear that no flush has followed is made good (R535). -/
def bookFrom (b : FieldBook) (area : List (Nat × Nat × Nat)) : FieldBook :=
  match area.getLast? with
  | some (op, pc, n) =>
    if b.clears < area.length then
      { b with counters := [], extremes := [], hist := [], ldpc := [], holdup := [], ecHist := [], clears := n,
               clearOpsec := op, clearPcc := pc, clearArea := area }
    else { b with clearArea := area }
  | none => b

/-- The slot with the highest generation of those whose CRC is correct (R534). -/
def newestSlot (i : StartupInput) (slots : Tab (FieldBook × Faults)) : Option (FieldBook × Faults) :=
  ((slots.filter fun e => !i.bookBad.contains e.1).foldl (fun b e => match b with
    | none => some e
    | some x => if x.2.1.gen < e.2.1.gen then some e else some x) none).map (·.2)

/-- The generation that an area of two slots holds, 0 when neither is good. -/
def areaGen (i : StartupInput) (slots : Tab (FieldBook × Faults)) (area : Nat) : Nat :=
  ((newestSlot i (slots.filter fun e => decide (e.1 / 2 = area))).map (·.1.gen)).getD 0

/-- The book and the ring of log 0xC4 are loaded (R534, R518), and a flush with cause 0 follows; without a valid slot
the book is empty, a detected fault. FAULTS counts since power-on (R70). Trips that no start-up has recorded are (R482).
-/
def loadBook (i : StartupInput) (s : State) : State :=
  let area := s.book.clearArea
  let f := s.faults
  let best := newestSlot i s.bookSlots
  let from' := best.getD ({}, {})
  let g := from'.2
  let s := { s with
    opsec := max s.opsec from'.1.flushOpsec
    book := { bookFrom from'.1 area with flushing := none, again := none, clearers := [], flushWaiters := []
                                         norGen := areaGen i s.bookSlots 0, nandGen := areaGen i s.bookSlots 1 }
    flushImage := none
    faults := { f with ring := g.ring, newest := g.newest, maskedEver := g.maskedEver, detectedEver := g.detectedEver,
                       masked := 0, detected := 0, lanes := g.lanes } }
  let s := if best.isSome then s else recordNoClass (chipUnit 4) false s
  let s := (List.range s.thermal.tripsDue).foldl (fun s _ => bookCount 13 s) s
  flushDue 0 { s with thermal := { s.thermal with tripsDue := 0 } }

/-! ### Boot slots (R544 to R548) -/

/-- A slot boots (R546, R547): slot 1 at any SECVER. -/
def slotBoots (i : StartupInput) (u : Startup) (n : Nat) : Bool :=
  let k := Tab.getD u.slots n {}
  i.goodSlots.contains n && (decide (n = 1) || (k.valid && (decide (u.minVersion ≤ k.secver) || k.authorised)))

/-- The slots in the order in which they are tried (R547). -/
def slotOrder (i : StartupInput) (u : Startup) : List Nat :=
  if !i.bootGoldN then [1]
  else
    let first := u.pending.getD u.active
    let others := if first = 2 then [3] else if first = 3 then [2] else [2, 3]
    first :: others ++ [1]

/-- A failed slot is marked invalid, and its FRS reads as zeros (R547). -/
def failSlot (t : Tab FwSlot) (n : Nat) : Tab FwSlot := if n = 1 then t else Tab.set t n { Tab.getD t n {} with valid := false, fr := [] }

/-- The copy of the directory with the higher sequence number of those whose MAC verifies (R544). -/
def dirUsed (i : StartupInput) (u : Startup) : Option DirCopy :=
  match i.dirBad.contains 0, i.dirBad.contains 1 with
  | true, true => none
  | true, false => some u.dir1
  | false, true => some u.dir0
  | false, false => some (if u.dir0.seq < u.dir1.seq then u.dir1 else u.dir0)

/-- The boot directory is read. When no copy verifies, slots 2 and 3 count as valid and unauthorised; which one is tried
first is open (R544; assumption 10). -/
def directory (i : StartupInput) (s : State) : State :=
  let u := s.startup
  let mark := fun (valid auth : Bool) (k : FwSlot) => { k with valid := valid, authorised := auth }
  let put := fun (valid auth : Nat → Bool) =>
    [2, 3].foldl (fun t n => Tab.set t n (mark (valid n) (auth n) (Tab.getD t n {}))) u.slots
  match dirUsed i u with
  | some d =>
    { s with startup := { u with slots := put d.valid.contains d.authorised.contains, active := d.active, pending := d.pending } }
  | none =>
    drew 1 { s with startup := { u with slots := put (fun _ => true) (fun _ => false), active := 2 + freeNat s % 2, pending := none } }

/-- The slot that boots becomes active; none when every one fails (R547). The golden image is as manufactured. -/
def chooseSlot (i : StartupInput) (s : State) : State × Bool :=
  let u := s.startup
  let order := slotOrder i u
  let failed := order.takeWhile fun n => !slotBoots i u n
  let slots := failed.foldl failSlot u.slots
  match order.find? (slotBoots i u) with
  | none => (writeDirectory { s with startup := { u with slots := slots } }, false)
  | some n =>
    let slots := if n = 1 then Tab.set slots 1 { Tab.getD slots 1 {} with valid := true, fr := Config.goldenFr, build := Config.goldenBuild }
                 else slots
    (writeDirectory { s with startup :=
      { u with slots := slots, active := n, supActive := n, pending := none, pendingReset := none } }, true)

/-- Start-up stops (R547): CSTS.RDY stays 0 and CSTS.CFS is set once CC.EN is. -/
def stopStartup (s : State) : State :=
  onPorts (fun p => { p with cfs := p.cfs || p.en }) { s with startup := { s.startup with stopped := true } }

/-! ### DRAM (R248, R253, R261) -/

/-- GiB of a channel: 64 data bits of the given devices (R245). -/
def channelGib (t : StrapImage) : Nat := 64 / max 1 t.drWidth * t.drDensity * t.drRanks / 8

/-- Compute memory in MiB: set U of the channels in service, less the map cache and the firmware's images (R248, R249,
R186). -/
def computeMib (t : StrapImage) (channels : Nat) : Nat :=
  channels * (channelGib t * 1024 - 768) - 8 * channelGib t * 128 - Config.firmwareMib

/-- The rate that a channel trains to: from the profile's rate it steps down until training succeeds (R261); 0 when it
fails at 4,800 MT/s, when its devices report another organisation than the profile's (R246), or when its fill does not
read back (R276). -/
def trainedRate (t : StrapImage) (x : DramFound) : Nat :=
  if x.width ≠ t.drWidth ∨ x.density ≠ t.drDensity ∨ x.ranks ≠ t.drRanks ∨ x.readsBack = false then 0
  else ([6400, 5600, 4800].find? fun r => decide (r ≤ t.drMaxrate ∧ r ≤ x.rate)).getD 0

/-- Every channel is trained; one that fails is out until the next start-up, and the sets are formed without it (R261,
R276). -/
def trainDram (i : StartupInput) (t : StrapImage) (s : State) : State :=
  let rate := fun ch => ((i.dram[ch]?).map (trainedRate t)).getD 0
  let up := (List.range 8).filter fun ch => decide (0 < rate ch)
  let s := { s with dram := {
    channels := (List.range 8).map fun ch => (ch, { fitted := true, inService := true, rate := rate ch, refreshAt := s.datum,
                                                    windowAt := s.datum, mr4At := s.datum, oscAt := s.datum,
                                                    zqAt := (List.range (max 1 t.drRanks)).map fun k => (k, s.datum) })
    gib := 8 * channelGib t
    rhth := t.drRhth
    totalMib := computeMib t 8 } }
  let s := ((List.range 8).filter fun ch => !up.contains ch).foldl (fun s ch => failDram ch 2 s) s
  { s with dram := { s.dram with setSReforming := false } }

/-! ### NAND discovery (R194, R207 to R210, R218 to R222) -/

/-- The parameter page of a chip enable: the first of the copies whose CRC is correct. Without the signature or such a
copy the chip enable counts as not answering (R221). -/
def cePage (c : CeFound) : Option ParamPage := if c.onfi then c.copies.findSome? id else none

/-- A chip enable of a channel that answers. -/
def answering (i : StartupInput) (ch k : Nat) : Option (CeFound × ParamPage) :=
  (i.ces.find? fun c => decide (c.channel.val = ch ∧ c.ce.val = k)).bind fun c => (cePage c).map fun p => (c, p)

/-- The chip enables that a channel uses: from CE0 upward to the first that does not answer (R219). -/
def usedCes (i : StartupInput) (ch : Nat) : List (CeFound × ParamPage) :=
  (((List.range 8).map (answering i ch)).takeWhile (·.isSome)).filterMap id

/-- A chip enable of a channel answers above one that does not (R219; DEDUCED, assumption 110). -/
def ceGap (i : StartupInput) (ch : Nat) : Bool :=
  (List.range 8).any fun k => decide ((usedCes i ch).length ≤ k) && (answering i ch k).isSome

/-- Training fails at every mode on a chip enable of the channel, which therefore fails (R221, R233). -/
def trainingFails (i : StartupInput) (ch : Nat) : Bool := (usedCes i ch).any fun c => decide (c.1.trained = 0)

/-- The fastest rate of an interface: NV-DDR3 or NV-LPDDR4 (R218, R549). -/
def interfaceRate (nfIf : Nat) : Nat := if nfIf = 0 then 1600 else 2400

/-- The rate of a channel in MT/s: the lowest that any of its chip enables accepts, within its page, NF_MAXRATE, the
interface and training (R221). -/
def channelRateOf (i : StartupInput) (t : StrapImage) (ch : Nat) : Nat :=
  (usedCes i ch).foldl (fun r c => min r (min c.2.rateMts c.1.trained)) (min t.nfMaxrate (interfaceRate t.nfIf))

/-- The dies of a chip enable: die index CE × LUNs + LUN on the channel (R219). -/
def diesOfCe (luns : Nat) (c : CeFound × ParamPage) : List FoundDie :=
  (List.range c.2.luns).map fun l =>
    { die := c.1.channel.val * 32 + (c.1.ce.val * luns + l) % 32, page := c.2, answers := !c.1.deaf.contains l
      bad := (c.1.badBlocks.filter fun b => decide (b.1 = l)).map (·.2) }

/-- The dies found on a channel. -/
def foundOn (i : StartupInput) (ch : Nat) : List FoundDie :=
  (usedCes i ch).flatMap (diesOfCe (((usedCes i ch).head?.map (·.2.luns)).getD 1))

/-- The dies found. -/
def foundDies (i : StartupInput) : List FoundDie := (List.range 32).flatMap (foundOn i)

/-- m: the smallest count of dies on a channel that has not failed (R194). -/
def smallestCount (i : StartupInput) : Nat :=
  (((List.range 32).filter fun ch => !trainingFails i ch).map fun ch => (foundOn i ch).length).foldl min 32

/-- The geometry that dies share: what their parameter pages report of it (R194, R218). -/
def sameGeometry (a b : ParamPage) : Bool :=
  decide (a.luns = b.luns ∧ a.dataBytes = b.dataBytes ∧ a.spareBytes = b.spareBytes ∧ a.planes = b.planes ∧ a.blocks = b.blocks
    ∧ a.maxBad = b.maxBad ∧ a.pagesPerBlock = b.pagesPerBlock)

/-- What R218 asks of a die that its parameter page can show: ONFI 4.0 or later, LUNs, page, planes, an SLC mode, read
retry and a readable temperature. -/
def meetsTable (p : ParamPage) : Bool :=
  decide (40 ≤ p.revision ∧ (p.luns = 1 ∨ p.luns = 2 ∨ p.luns = 4) ∧ p.dataBytes = 16384 ∧ 2048 ≤ p.spareBytes
    ∧ (p.planes = 1 ∨ p.planes = 2 ∨ p.planes = 4) ∧ 1 ≤ p.retryLevels) && p.slcMode && p.tempReadable

/-- A die that is used: it answers and meets R218, lies within the smallest count and the PPN range, and has the
geometry of die 0 on CH0 (R194). -/
def dieAccepted (i : StartupInput) (d : FoundDie) : Bool :=
  let model := ((foundDies i).find? fun x => decide (x.die = 0)).getD d
  d.answers && meetsTable d.page && decide (d.die % 32 < smallestCount i ∧ d.page.blocks * d.page.pagesPerBlock ≤ 2 ^ 24)
    && sameGeometry model.page d.page

/-- What the parameter page says of a die (R222, R223): its rates in kB/s, and the length of its codewords. -/
def withPage (rate : Nat) (p : ParamPage) (x : Die) : Die :=
  { x with
    planes := p.planes, spareBytes := p.spareBytes, retryLevels := p.retryLevels, endurance := p.endurance, rateMts := rate
    progRate := 16384 * p.planes * 1000 / max 1 p.tProg
    slcRate := 16384 * p.planes * 1000 / max 1 p.tProgSlc
    tRead := p.tRead, tReadSlc := p.tReadSlc
    codewordLen := (16384 + p.spareBytes) / 32 * 8 }

/-- A die on first use: its bad blocks are out, and the first good blocks hold the system area (R207, R221; DESIGN CHOICE,
assumption 36: which blocks those are). -/
def newDie (accepted : Bool) (rate : Nat) (d : FoundDie) : Die :=
  let p := d.page
  let good := (List.range p.blocks).filter fun b => !d.bad.contains b
  let x := withPage rate p { state := if accepted then .inService else .excluded, blocks := p.blocks, maxBad := p.maxBad,
                             good := good.length, pagesPerBlock := p.pagesPerBlock, factoryBad := d.bad }
  { x with freeBlocks := if accepted then good.drop (sSys x) else []
           sysBlocks := if accepted then good.take (sSys x) else [] }

/-- The dump pool takes its blocks from the system area of each die (R207; assumption 36). -/
def fillPools (s : State) : State :=
  let n := poolPerDie s
  { s with media := { s.media with dies := s.media.dies.map fun d => (d.1, { d.2 with poolBlocks := d.2.sysBlocks.take n }) } }

/-- First use of the media (R208 to R210): the dies found, TNVMCAP, U and the spares of the format. -/
def firstUse (i : StartupInput) (t : StrapImage) (s : State) : State :=
  let s := { s with media := { s.media with
    dies := (foundDies i).foldl (fun m d => Tab.set m d.die (newDie (dieAccepted i d) (channelRateOf i t (d.die / 32)) d)) []
    dpc := smallestCount i } }
  let s := fillPools s
  let g := geometry s
  let n := (diesInService s).length
  let l := dData g n / 64
  let cap := (dData g n - l) * (100 - t.opPct) / 100 / 1073741824 * 1073741824
  let per := g.pagesPerBlock * 16384 * 31 / 32
  let s := { s with media := { s.media with
    formatted := true
    opPct := t.opPct
    nAtFormat := n
    linkStore := l
    tnvmcap := cap
    uPerDie := ceilDiv (cap + l) (max 1 (n * per)) } }
  { s with media := { s.media with spFormat := spNow s } }

/-- A page reports the geometry that the media were formatted with (R194, R218). -/
def keepsGeometry (x : Die) (p : ParamPage) : Bool :=
  decide (p.planes = x.planes ∧ p.spareBytes = x.spareBytes ∧ p.blocks = x.blocks ∧ p.maxBad = x.maxBad
    ∧ p.pagesPerBlock = x.pagesPerBlock) && meetsTable p

/-- What a later start-up makes of a die in service: rates are read again; a die that no longer meets R218 is excluded;
one whose page has no correct CRC is retired with cause 5, and one that does not answer with cause 4 (R218, R222, R231).
-/
def seeDie (i : StartupInput) (t : StrapImage) (die : Nat) (x : Die) (s : State) : State :=
  let ch := die / 32
  match (foundDies i).find? fun d => decide (d.die = die) with
  | some d =>
    if !d.answers then retireDie die 4 s
    else
      let y := if keepsGeometry x d.page then withPage (channelRateOf i t ch) d.page x
        else { x with state := .excluded, freeBlocks := [], poolBlocks := [] }
      { s with media := { s.media with dies := Tab.set s.media.dies die y } }
  | none =>
    let luns := ((usedCes i ch).head?.map (·.2.luns)).getD 1
    let badPage := i.ces.any fun c => decide (c.channel.val = ch ∧ c.ce.val = die % 32 / luns) && c.onfi && (cePage c).isNone
    retireDie die (if badPage then 5 else 4) s

/-- A later start-up: a retired die stays so, and a die not known before is excluded (R232). The dies of a channel that
fails are retired with it (R233). -/
def laterUse (i : StartupInput) (t : StrapImage) (s : State) : State :=
  let new := (foundDies i).filter fun d => !Tab.has s.media.dies d.die
  let known := (diesInService s).filter fun d => !trainingFails i (d.1 / 32)
  let s := { s with media := { s.media with
    dies := new.foldl (fun m d => Tab.set m d.die (newDie false (channelRateOf i t (d.die / 32)) d)) s.media.dies } }
  known.foldl (fun s d => seeDie i t d.1 d.2 s) s

/-- Step 5: gaps in the chip enables, the dies, channels that fail; WP_N is released (R219, R221, R233, R244). -/
def discoverNand (i : StartupInput) (t : StrapImage) (s : State) : State :=
  let gap := fun (s : State) (ch : Nat) => recordDetected { level := 4, cls := 0x11, site := { kind := 7, index := ch }, aux0 := 4 } s
  let s := ((List.range 32).filter (ceGap i)).foldl gap s
  let s := if s.media.formatted then laterUse i t s else firstUse i t s
  let s := ((List.range 32).filter (trainingFails i)).foldl (fun s ch => failChannel ch s) s
  judgeDestage { s with media := { s.media with wpLow := false } }

/-! ### Regions, keys, journal -/

/-- The regions are lit and self-tested (R504, R508); region retirements are over (R514), involuntary eclipses within 24
hours still count. -/
def lightAll (i : StartupInput) (s : State) : State :=
  let s := { s with
    regions := (List.range 8).map fun r => (r, { powered := true, windowAt := s.datum, involuntary := (region s r).involuntary })
    copies := (List.range 9).map fun c => (c, s.datum)
    domains := []
    powerQueue := []
    startup := { s.startup with regionsUp := true } }
  (List.range 8).foldl (fun s r => testAll r i.failedUnits s) s

/-- Wrapped copies that fail to unwrap: one of a slot's two is a masked fault, both lose the slot, a detected fault
(R446). -/
def loadKeys (i : StartupInput) (s : State) : State :=
  (i.keyFaults.filter fun k => decide ((keyOf s k.1).typ ≠ .free)).foldl (fun s k =>
    if k.2 then recordNoClass (chipUnit 3) false (modKey k.1 (fun x => { x with lost := true }) s)
    else recordNoClass (chipUnit 3) true s) s

/-- A delta of a record at replay: it pends for a page on NAND that is older, and takes effect on an entry that is older
(R187, R191, R193). -/
def replayDelta (q : Nat) (s : State) (d : Delta) : State :=
  match nsOf s d.nsid with
  | none => s
  | some n =>
    if (entryOf n d.unit).seq < q then applyDelta q s d
    else if (Tab.getD s.media.pages (pageKey d.nsid (pageOf d.unit)) {}).mediaSeq < q then touchPage q d s
    else s

/-- A link that the chain does not hold yet is its head (R154, R193). -/
def replayLink (nsid : Nat) (l : Link) (s : State) : State :=
  modNs nsid (fun n => if n.chain.links.length = l.lseq then { n with chain := { n.chain with links := n.chain.links ++ [l] } }
    else n) s

/-- Applies a record at replay (R193). What State keeps of a record across a loss of power is not applied twice (DEDUCED,
assumption 149). -/
def applyRecord (s : State) (r : JournalRecord) : State :=
  match r.body with
  | .granule ds link _ =>
    let s := ds.foldl (replayDelta r.seq) s
    match ds.head?, link with
    | some d, some l => replayLink d.nsid l s
    | _, _ => s
  | .move ds => ds.foldl (replayDelta r.seq) s
  | .retire die (some blk) =>
    let k := blockKey die blk
    { s with media := { s.media with blocks := Tab.set s.media.blocks k { Tab.getD s.media.blocks k {} with retired := true } } }
  | .sbState sb .erasing _ _ => modSb sb (fun b => if b.state = .closed then { b with state := .erasing } else b) s
  | .retire _ none | .sbState _ _ _ _ | .seals _ _ _ _ | .stream _ _ _ | .nsChange _ _ _ | .dump _ | .checkpoint _ _ _
  | .monument _ _ => s

/-- P of the checkpoint that replay starts from: the newest that reads clean, else the one before it (R193). -/
def replayFrom (bad : Bool) (m : Media) : Nat := ((if bad then m.checkpoints.drop 1 else m.checkpoints).head?.map (·.p)).getD 0

/-- The records that replay applies: in SEQ order from P to the torn tail (R193). -/
def replayed (i : StartupInput) (m : Media) : List JournalRecord :=
  (m.log.filter fun r => decide (replayFrom i.checkpointBad m < r.seq)).takeWhile fun r => i.tornAt.all fun t => decide (r.seq < t)

/-- Step 6: a clean start-up loads the newest checkpoint; any other counts as an unsafe shutdown, replays the journal,
closes the open superblocks and writes a checkpoint; a superblock in state erasing stays marked for erase (R193, R214,
R551). -/
def replay (i : StartupInput) (s : State) : State :=
  if s.media.clean then { s with media := { s.media with replayMs := 0 } }
  else
    let m := s.smart
    let s := (replayed i s.media).foldl applyRecord { s with
      smart := { m with unsafeShutdowns := m.unsafeShutdowns + 1 }
      media := { s.media with replayMs := i.replayMs, journal := [] } }
    let opened := (s.media.sbs.filter fun b => decide (b.2.state = .opened)).map (·.1)
    checkpoint (opened.foldl (fun s sb => setSbState sb .closed s) s)

/-- Monuments pending since before the loss of power are signed, by NSID and MSEQ; the 60 s of R158 start again (R159). -/
def signPending (s : State) : State :=
  let now := s.datum
  let again := fun n : Namespace => { n with chain := { n.chain with lastMon := now } }
  let nss : Tab Namespace := s.namespaces.map fun n => (n.1, again n.2)
  (nss.map (·.1)).foldl (fun s n => writeAllMonuments n s) { s with namespaces := nss }

/-! ### Step 8: what is restored (R139, R357, R415, R449) -/

/-- MiB that the loaded programs and pattern sets of a slice are charged (R358, R415). -/
def loadedMib (s : State) (sl : Nat) : Nat :=
  ((s.progs.filter fun p => decide (p.2.slice = sl)).map fun p => mibOf (p.2.code.length + p.2.data.length)).sum
    + ((s.sets.filter fun p => decide (p.2.slice = sl)).map fun p => p.2.mib).sum

/-- Restores slices, program slots and pattern sets with their charges, and the reservations (R139, R140, R449). -/
def restoreAll (s : State) : State :=
  let s := { s with progs := s.progs.filter fun p => !p.2.closing }
  let put := fun (s : State) (n : Nat) => modSlice n (fun x => { x with dramUsed := x.commonMib + loadedMib s n }) s
  let s := (0 :: (tenants s).map (·.1)).foldl put s
  let s := { s with resvs := s.resvs.map fun r => { r with bucket := bucketFull r.burst, bucketAt := s.datum, admitted := s.datum } }
  let s := if s.holdUp.writeThrough then flagAtRisk s else s
  if overBase s then atRiskNotice 46 (chipUnit 16) 0 s else s

/-- A broken sensor's unit acts as at T2, and units already in T2 start stopped (R484, R486). -/
def stopHot (i : StartupInput) (s : State) : State :=
  let s := i.brokenSensors.foldl (fun s n => breakSensor n 1 (modSensor n (fun x => { x with broken := false }) s)) s
  ((List.range 64).filter fun n => (sensorOf s n).t2.inside && !(sensorOf s n).broken).foldl (fun s n => enterT2 n s) s

/-! ### The sequence (R551) -/

/-- Steps 3 to 8. DESIGN CHOICE (assumption 37): one step. -/
def boot (i : StartupInput) (s : State) : State :=
  let t := (strapOf s).getD noStrap
  let s := { s with vcore := { s.vcore with pgGood := true } }
  if !mediaFieldsOk t then stopStartup s
  else
    let s := discoverNand i t (judgeWt (trainDram i t (lightAll i s)))
    let s := signPending (replay i (loadKeys i s))
    let s := { s with base := { computeBase s 0 0 with running := false, held := [] } }
    let s := restoreAll s
    let s := { s with secAt := s.datum, startup := { s.startup with done := true, waitingHot := false } }
    let s := stopHot i s
    let s := if i.sealOpen && !s.presence.sealNow then sealLoopOpened s else s
    finishDestroys (raiseVersion s.startup.active (makeReady 1 (makeReady 0 s)))

/-- VCORE is commanded to 0.75 V and VCORE_EN raised; start-up goes on when VCORE_PG rises (R576). -/
def releaseVcore (i : StartupInput) (s : State) : State :=
  let s := { s with
    vcore := { vset := 750, lastCmd := s.datum, checks := [(s.datum + 20000, false)], enabled := true }
    startup := { s.startup with waitingHot := false } }
  if i.pgFailures = 0 then boot i s else s

/-- A valid on-die sensor reads 115 °C or more (R486). -/
def tooHot (s : State) : Bool :=
  (List.range 64).any fun n => match validReading s n with
    | some t => decide (460 ≤ t)
    | none => false

/-- Every valid sensor has read 105 °C or less for two consecutive samples (R486). -/
def cooledDown (s : State) : Bool :=
  (List.range 64).all fun n => (validReading s n).isNone || decide (2 ≤ (sensorOf s n).cool)

/-- Features in force: the saved values, else the defaults (R86, R495). -/
def restoreFeatures (f : Features) : Features :=
  { f with
    arb := f.arbSaved.getD 0
    thresholds := f.thresholdsSaved
    queues := []
    coalTime := (f.coalSaved.map (·.1)).getD 0
    coalThr := (f.coalSaved.map (·.2)).getD 0
    asyncCfg := f.asyncSaved.getD 0x0B1F
    grace := f.graceSaved.getD 20
    scrub := f.scrubSaved.getD 24 }

/-- Step 1: the straps are latched, and the ports that PORT_MODE gives answer (R61, R542, R552). -/
def latchStraps (i : StartupInput) (s : State) : State :=
  let u := s.startup
  { s with
    ports := (0, { present := true }) :: (if i.portMode then [(1, { present := true })] else [])
    features := restoreFeatures s.features
    supply := { s.supply with ps := 0, lastOperational := 0, held := [] }
    startup := { u with portMode := i.portMode, priorSel := i.priorSel, bootGoldN := i.bootGoldN,
                        tick0 := u.tick0.or (some s.datum), input := some i } }

/-- The on-die sensors are read before VCORE is released; grace and enforcement begin afresh (R483, R486). -/
def firstSamples (i : StartupInput) (s : State) : State :=
  let th := s.thermal
  let fresh := fun e : Nat × Sensor => (e.1, { e.2 with broken := false, checkFails := 0, rangeFails := 0, same := 0 })
  let s := { s with thermal := { th with inT1 := false, graceStart := none, level := 0, sensors := th.sensors.map fresh } }
  let s := i.brokenSensors.foldl (fun s n => modSensor n (fun x => { x with broken := true }) s) s
  (i.temps.filter fun e => decide (e.1 < 64)).foldl (fun s e => sampleOnDie e.1 e.2.1 e.2.2 s) s

/-- The first deassertion of PERST# begins start-up (R542, R551), but not while TESTMODE reads high (R568). -/
def execStartupBegin (i : StartupInput) (s : State) : Out :=
  .next (
    let u := s.startup
    if i.testMode || !s.vaon || s.dump.poweredDown || u.done || u.stopped || u.input.isSome then s
    else
      let s := applyStrap (strapUsed i) (loadBook i (latchStraps i s))
      let r := chooseSlot i (directory i s)
      let s := r.1
      if !r.2 then stopStartup s
      else
        let s := firstSamples i s
        if tooHot s then { s with startup := { s.startup with waitingHot := true } } else releaseVcore i s)

/-- A sample; a start-up that waits for the part to cool goes on when it has (R471, R486). -/
def execSensorSample (src : TempSource) (t : Int) (code : Nat) (s : State) : Out :=
  .next (
    let s := sensorSample src t code s
    match s.startup.input with
    | some i => if s.startup.waitingHot && cooledDown s then releaseVcore i s else s
    | none => s)

/-- VCORE_PG has not risen within 10 ms: VCORE_EN is dropped, a detected fault recorded, and it is tried once more;
after a second failure start-up stops (R576). The readback of AUX1 is a free value. -/
def execVcorePgTimeout (s : State) : Out :=
  .next (match s.startup.input with
    | none => s
    | some i =>
      let v := s.vcore
      if !v.enabled || v.pgGood || s.startup.stopped || s.startup.done || decide (i.pgFailures ≤ v.pgFails) then s
      else
        let s := recordDetected { level := 3, cls := 0x0D, site := chipUnit 9, aux0 := v.vset, aux1 := freeNat s } (drew 1 s)
        let s := { s with vcore := { v with pgFails := v.pgFails + 1, enabled := decide (v.pgFails = 0) } }
        if 1 ≤ v.pgFails then stopStartup s
        else if i.pgFailures = 1 then boot i s
        else s)

/-! ### VAON (R23, R131, R537, R540, R542) -/

/-- VAON reaches power-good: the datum is zero and the power-cycle count rises (R23, R542). -/
def execVaonPowerGood (s : State) : Out :=
  .next (if s.vaon then s else { s with vaon := true, datum := 0, copies := [], pcc := satAdd 32 s.pcc 1 })

/-- The slots of the field book as a loss of power leaves them: those of a flush that is under way are written or torn,
which start-up finds out, and the others are intact (R533, R534). -/
def slotsLeft (s : State) : Tab (FieldBook × Faults) :=
  match s.flushImage with
  | some im => Tab.set (Tab.set s.bookSlots (im.1.gen % 2) im) (2 + im.1.gen % 2) im
  | none => s.bookSlots

/-- VAON is lost: with it goes what the always-on domain holds; the book and operating seconds are read from the slots
again at start-up (R23, R481, R485, R534, R537, R540; DEDUCED, assumption 38). -/
def execVaonLoss (s : State) : Out :=
  .next (
    if !s.vaon then s
    else
      let s := if s.dump.poweredDown then s else powerOff s
      let f := s.features
      { s with
        vaon := false
        datum := 0
        copies := []
        oscillator := false
        opsec := 0
        features := { f with tsMs := 0, tsDatum := 0, tsOrigin := 0 }
        holdUp := {}
        dump := {}
        thermal := { tripsDue := s.thermal.tripsDue }
        supply := {}
        faults := {}
        book := { clearArea := s.book.clearArea }
        bookSlots := slotsLeft s
        flushImage := none
        presence := { sealOpened := s.presence.sealOpened, serviceLow := s.presence.serviceLow }
        mi := {} })

end Sys2Proof.Machine
end

