-- ==== Sys2Proof/Machine/Dispatch.lean ====
section
/-! DEFINITION. What each command does: one arm per row of the opcode table. -/

namespace Sys2Proof.Machine

open Host

/-- The effect of a command on everything but the queue. -/
def exec (i : Instr) (s : State) : Host.Outcome State Fault Refusal :=
  match i with
  -- regions, handshakes and the datum
  | .stallSentinelExpiry lvl site since => Sys2Proof.Machine.execStallSentinelExpiry lvl site since s
  | .fabricTransfer arb site seen => Sys2Proof.Machine.execFabricTransfer arb site seen s
  | .arbiterGrant arb reqs => Sys2Proof.Machine.execArbiterGrant arb reqs s
  | .clockSourceSwitch => Sys2Proof.Machine.execClockSourceSwitch s
  | .crystalReturn => Sys2Proof.Machine.execCrystalReturn s
  | .datumBroadcast upsets => Sys2Proof.Machine.execDatumBroadcast upsets s
  | .dtNowLoRead c rd => Sys2Proof.Machine.execDtNowLoRead c rd s
  | .dtAlarmCtlWrite c rs => Sys2Proof.Machine.execDtAlarmCtlWrite c rs s
  | .datumAlarmFire task => Sys2Proof.Machine.execDatumAlarmFire task s
  | .paceWindowEnd r cycles => Sys2Proof.Machine.execPaceWindowEnd r cycles s
  | .vcoreStep => Sys2Proof.Machine.execVcoreStep s
  | .vcoreReadbackCheck mv ack => Sys2Proof.Machine.execVcoreReadbackCheck mv ack s
  | .baselineComputationStart trigger => Sys2Proof.Machine.execBaselineComputationStart trigger s
  | .baselineComputationDone => Sys2Proof.Machine.execBaselineComputationDone s
  | .coreCellPowerOff c => Sys2Proof.Machine.execCoreCellPowerOff c s
  | .domainPowerGood d => Sys2Proof.Machine.execDomainPowerGood d s
  -- host link and queues
  | .portReset port kind => Sys2Proof.Machine.execPortReset port kind s
  | .sqTailDoorbell port qid value => Sys2Proof.Machine.execSqTailDoorbell port qid value s
  | .cqHeadDoorbell port qid value => Sys2Proof.Machine.execCqHeadDoorbell port qid value s
  | .swDatumLoRead port space off size => Sys2Proof.Machine.execSwDatumLoRead port space off size s
  | .ccEnable port cc => Sys2Proof.Machine.execCcEnable port cc s
  | .ccDisable port => Sys2Proof.Machine.execCcDisable port s
  | .ccShutdown port shn => Sys2Proof.Machine.execCcShutdown port shn s
  | .commandFetch port qid cid opcode cdw10 => Sys2Proof.Machine.execCommandFetch port qid cid opcode cdw10 s
  | .completionPost port cqid => Sys2Proof.Machine.execCompletionPost port cqid s
  | .msixVectorUnmask port v => Sys2Proof.Machine.execMsixVectorUnmask port v s
  | .asyncEventPost port => Sys2Proof.Machine.execAsyncEventPost port s
  | .createIoSubmissionQueue h qid size pc prio cqid => Sys2Proof.Machine.execCreateIoSubmissionQueue h qid size pc prio cqid s
  | .createIoCompletionQueue h qid size pc ien iv => Sys2Proof.Machine.execCreateIoCompletionQueue h qid size pc ien iv s
  | .deleteIoSubmissionQueue h qid => Sys2Proof.Machine.execDeleteIoSubmissionQueue h qid s
  | .deleteIoCompletionQueue h qid => Sys2Proof.Machine.execDeleteIoCompletionQueue h qid s
  | .getLogPage h nsid lid lsp rae off len => Sys2Proof.Machine.execGetLogPage h nsid lid lsp rae off len s
  | .identify h cns nsid cntid csi => Sys2Proof.Machine.execIdentify h cns nsid cntid csi s
  | .abort h sq cid => Sys2Proof.Machine.execAbort h sq cid s
  | .setFeaturesArbitration h save ab lpw mpw hpw => Sys2Proof.Machine.execSetFeaturesArbitration h save ab lpw mpw hpw s
  | .setFeaturesPowerManagement h save ps wh => Sys2Proof.Machine.execSetFeaturesPowerManagement h save ps wh s
  | .setFeaturesTemperatureThreshold h save tmpsel thsel tmpth => Sys2Proof.Machine.execSetFeaturesTemperatureThreshold h save tmpsel thsel tmpth s
  | .setFeaturesNumberOfQueues h save nsq ncq => Sys2Proof.Machine.execSetFeaturesNumberOfQueues h save nsq ncq s
  | .setFeaturesInterruptCoalescing h save time thr => Sys2Proof.Machine.execSetFeaturesInterruptCoalescing h save time thr s
  | .setFeaturesInterruptVectorConfig h save iv cd => Sys2Proof.Machine.execSetFeaturesInterruptVectorConfig h save iv cd s
  | .setFeaturesAsyncEventConfig h save v => Sys2Proof.Machine.execSetFeaturesAsyncEventConfig h save v s
  | .setFeaturesTimestamp h save ms => Sys2Proof.Machine.execSetFeaturesTimestamp h save ms s
  | .setFeaturesThermalGraceTime h save v => Sys2Proof.Machine.execSetFeaturesThermalGraceTime h save v s
  | .setFeaturesInterleaveGrain h save v => Sys2Proof.Machine.execSetFeaturesInterleaveGrain h save v s
  | .setFeaturesScrubPeriod h save v => Sys2Proof.Machine.execSetFeaturesScrubPeriod h save v s
  | .getFeatures h fid sel v => Sys2Proof.Machine.execGetFeatures h fid sel v s
  | .asynchronousEventRequest h => Sys2Proof.Machine.execAsynchronousEventRequest h s
  | .namespaceCreate h p => Sys2Proof.Machine.execNamespaceCreate h p s
  | .namespaceDelete h nsid => Sys2Proof.Machine.execNamespaceDelete h nsid s
  | .namespaceDeleteEffect nsid => Sys2Proof.Machine.execNamespaceDeleteEffect nsid s
  | .namespaceAttach h nsid ctrls => Sys2Proof.Machine.execNamespaceAttach h nsid ctrls s
  | .namespaceDetach h nsid ctrls => Sys2Proof.Machine.execNamespaceDetach h nsid ctrls s
  | .firmwareImageDownload h off data => Sys2Proof.Machine.execFirmwareImageDownload h off data s
  | .firmwareCommit h action slot => Sys2Proof.Machine.execFirmwareCommit h action slot s
  | .firmwareCommitActivate h slot => Sys2Proof.Machine.execFirmwareCommitActivate h slot s
  | .activationStep => Sys2Proof.Machine.execActivationStep s
  | .directiveSend h nsid dtype doper dspec v => Sys2Proof.Machine.execDirectiveSend h nsid dtype doper dspec v s
  | .directiveReceive h nsid dtype doper dspec nsr => Sys2Proof.Machine.execDirectiveReceive h nsid dtype doper dspec nsr s
  | .formatNvm h nsid lbaf ses parity => Sys2Proof.Machine.execFormatNvm h nsid lbaf ses parity s
  | .sanitizeBlockErase h => Sys2Proof.Machine.execSanitizeBlockErase h s
  | .sanitizeCryptoErase h => Sys2Proof.Machine.execSanitizeCryptoErase h s
  -- write path
  | .flush h nsid => Sys2Proof.Machine.execFlush h nsid s
  | .write h nsid slba nlb dtype dspec data => Sys2Proof.Machine.execWrite h nsid slba nlb dtype dspec data s
  | .writeCommit h hostFault => Sys2Proof.Machine.execWriteCommit h hostFault s
  | .writeZeroes h nsid slba nlb deac => Sys2Proof.Machine.execWriteZeroes h nsid slba nlb deac s
  | .datasetManagement h nsid ad ranges => Sys2Proof.Machine.execDatasetManagement h nsid ad ranges s
  | .read h nsid slba nlb => Sys2Proof.Machine.execRead h nsid slba nlb s
  | .verify h nsid slba nlb => Sys2Proof.Machine.execVerify h nsid slba nlb s
  | .destageStripeProgram sb units lost xts => Sys2Proof.Machine.execDestageStripeProgram sb units lost xts s
  | .nandProgramComplete sb => Sys2Proof.Machine.execNandProgramComplete sb s
  | .holdupMeasurementStart v0 => Sys2Proof.Machine.execHoldupMeasurementStart v0 s
  | .holdupV1Sample v1 => Sys2Proof.Machine.execHoldupV1Sample v1 s
  | .holdupV2Sample v2 => Sys2Proof.Machine.execHoldupV2Sample v2 s
  | .holdupSettleTimeout => Sys2Proof.Machine.execHoldupSettleTimeout s
  | .bankRecharged v => Sys2Proof.Machine.execBankRecharged v s
  | .vbankSample v => Sys2Proof.Machine.execVbankSample v s
  | .holdUpTest h nsid => Sys2Proof.Machine.execHoldUpTest h nsid s
  | .vinWarnFall => Sys2Proof.Machine.execVinWarnFall s
  | .vinWarnRise => Sys2Proof.Machine.execVinWarnRise s
  | .powerFailWarning => Sys2Proof.Machine.execPowerFailWarning s
  | .reserveWindowClose => Sys2Proof.Machine.execReserveWindowClose s
  | .dumpComplete => Sys2Proof.Machine.execDumpComplete s
  | .vinRecovery => Sys2Proof.Machine.execVinRecovery s
  | .vinResetReached => Sys2Proof.Machine.execVinResetReached s
  | .supervisorRestart perstAsserted => Sys2Proof.Machine.execSupervisorRestart perstAsserted s
  | .streamReserve h nsid d data => Sys2Proof.Machine.execStreamReserve h nsid d data s
  | .streamRelease h nsid d => Sys2Proof.Machine.execStreamRelease h nsid d s
  -- custody chain and seals
  | .chainLinkForm nsid laneMismatch => Sys2Proof.Machine.execChainLinkForm nsid laneMismatch s
  | .monumentTimerExpiry nsid => Sys2Proof.Machine.execMonumentTimerExpiry nsid s
  | .monumentWrite nsid engineFault => Sys2Proof.Machine.execMonumentWrite nsid engineFault s
  | .rangeDigest h nsid d => Sys2Proof.Machine.execRangeDigest h nsid d s
  | .extentSeal h nsid d data => Sys2Proof.Machine.execExtentSeal h nsid d data s
  | .sealPointFix nsid => Sys2Proof.Machine.execSealPointFix nsid s
  | .sealManifestComplete nsid => Sys2Proof.Machine.execSealManifestComplete nsid s
  | .extentUnseal h nsid d data rechecks => Sys2Proof.Machine.execExtentUnseal h nsid d data rechecks s
  -- flash translation
  | .mapPageLoadComplete nsid page lost => Sys2Proof.Machine.execMapPageLoadComplete nsid page lost s
  | .mapPageWriteback nsid page => Sys2Proof.Machine.execMapPageWriteback nsid page s
  | .mapPageReconstruct nsid page => Sys2Proof.Machine.execMapPageReconstruct nsid page s
  | .journalRecordDurable seq => Sys2Proof.Machine.execJournalRecordDurable seq s
  | .checkpointStart => Sys2Proof.Machine.execCheckpointStart s
  | .reclaimSourceSelect group => Sys2Proof.Machine.execReclaimSourceSelect group s
  | .unitRelocate nsid unit dstDie dstPpn readable matches1 matches2 => Sys2Proof.Machine.execUnitRelocate nsid unit dstDie dstPpn readable matches1 matches2 s
  | .sourceErase sb => Sys2Proof.Machine.execSourceErase sb s
  | .wearLevelMove src => Sys2Proof.Machine.execWearLevelMove src s
  | .dieRetire die cause => Sys2Proof.Machine.execDieRetire die cause s
  | .redundancyRebuildComplete die => Sys2Proof.Machine.execRedundancyRebuildComplete die s
  -- NAND channels
  | .pageReadComplete die blk nsid unit issued cws membersLost xts => Sys2Proof.Machine.execPageReadComplete die blk nsid unit issued cws membersLost xts s
  | .readRebuildTimeout die nsid unit issued membersLost => Sys2Proof.Machine.execReadRebuildTimeout die nsid unit issued membersLost s
  | .mediaScrubRead sb cws membersLost => Sys2Proof.Machine.execMediaScrubRead sb cws membersLost s
  | .programFail die sb page => Sys2Proof.Machine.execProgramFail die sb page s
  | .eraseFail die sb => Sys2Proof.Machine.execEraseFail die sb s
  | .dieBusyTimeout die => Sys2Proof.Machine.execDieBusyTimeout die s
  | .flashChannelFail ch => Sys2Proof.Machine.execFlashChannelFail ch s
  | .channelAdopt ch badChecks => Sys2Proof.Machine.execChannelAdopt ch badChecks s
  | .channelReturn ch => Sys2Proof.Machine.execChannelReturn ch s
  | .nandTempSample die t => Sys2Proof.Machine.execNandTempSample die t s
  -- DRAM
  | .dramAccessIssue ch sub arrivals busy flips landed => Sys2Proof.Machine.execDramAccessIssue ch sub arrivals busy flips landed s
  | .rowDisturbThreshold ch bankKey row drfm => Sys2Proof.Machine.execRowDisturbThreshold ch bankKey row drfm s
  | .refreshWindowStart ch => Sys2Proof.Machine.execRefreshWindowStart ch s
  | .dramRefresh ch bankKey => Sys2Proof.Machine.execDramRefresh ch bankKey s
  | .mr4Poll ch twice => Sys2Proof.Machine.execMr4Poll ch twice s
  | .zqCalibration ch rank => Sys2Proof.Machine.execZqCalibration ch rank s
  | .dqsOscillatorRead ch drift => Sys2Proof.Machine.execDqsOscillatorRead ch drift s
  | .dqsRetrain ch ok => Sys2Proof.Machine.execDqsRetrain ch ok s
  | .setUFill mib => Sys2Proof.Machine.execSetUFill mib s
  | .sramSweep site lvl addr syndrome addressBits use => Sys2Proof.Machine.execSramSweep site lvl addr syndrome addressBits use s
  | .traverseVisit ch flips content => Sys2Proof.Machine.execTraverseVisit ch flips content s
  | .revisitRewrite ch addr content => Sys2Proof.Machine.execRevisitRewrite ch addr content s
  | .dramChannelFail ch cause => Sys2Proof.Machine.execDramChannelFail ch cause s
  | .setSReformComplete => Sys2Proof.Machine.execSetSReformComplete s
  -- Opxus instructions
  | .opAdd c g d a b => Sys2Proof.Machine.execOpAdd c g d a b s
  | .opSub c g d a b => Sys2Proof.Machine.execOpSub c g d a b s
  | .opAnd c g d a b => Sys2Proof.Machine.execOpAnd c g d a b s
  | .opOr c g d a b => Sys2Proof.Machine.execOpOr c g d a b s
  | .opXor c g d a b => Sys2Proof.Machine.execOpXor c g d a b s
  | .opAndn c g d a b => Sys2Proof.Machine.execOpAndn c g d a b s
  | .opShl c g d a b => Sys2Proof.Machine.execOpShl c g d a b s
  | .opShr c g d a b => Sys2Proof.Machine.execOpShr c g d a b s
  | .opSar c g d a b => Sys2Proof.Machine.execOpSar c g d a b s
  | .opRor c g d a b => Sys2Proof.Machine.execOpRor c g d a b s
  | .opMul c g d a b => Sys2Proof.Machine.execOpMul c g d a b s
  | .opMulh c g d a b => Sys2Proof.Machine.execOpMulh c g d a b s
  | .opMulhu c g d a b => Sys2Proof.Machine.execOpMulhu c g d a b s
  | .opDiv c g d a b => Sys2Proof.Machine.execOpDiv c g d a b s
  | .opDivu c g d a b => Sys2Proof.Machine.execOpDivu c g d a b s
  | .opRem c g d a b => Sys2Proof.Machine.execOpRem c g d a b s
  | .opRemu c g d a b => Sys2Proof.Machine.execOpRemu c g d a b s
  | .opMin c g d a b => Sys2Proof.Machine.execOpMin c g d a b s
  | .opMax c g d a b => Sys2Proof.Machine.execOpMax c g d a b s
  | .opMinu c g d a b => Sys2Proof.Machine.execOpMinu c g d a b s
  | .opMaxu c g d a b => Sys2Proof.Machine.execOpMaxu c g d a b s
  | .opClz c g d a => Sys2Proof.Machine.execOpClz c g d a s
  | .opPopc c g d a => Sys2Proof.Machine.execOpPopc c g d a s
  | .opBfxReg c g d a b => Sys2Proof.Machine.execOpBfxReg c g d a b s
  | .opBfxuReg c g d a b => Sys2Proof.Machine.execOpBfxuReg c g d a b s
  | .opBfiReg c g d a b => Sys2Proof.Machine.execOpBfiReg c g d a b s
  | .opPermr c g d a b => Sys2Proof.Machine.execOpPermr c g d a b s
  | .opBfx c g d a p w1 => Sys2Proof.Machine.execOpBfx c g d a p w1 s
  | .opBfxu c g d a p w1 => Sys2Proof.Machine.execOpBfxu c g d a p w1 s
  | .opBfi c g d a p w1 => Sys2Proof.Machine.execOpBfi c g d a p w1 s
  | .opPerm c g d a sel => Sys2Proof.Machine.execOpPerm c g d a sel s
  | .opAddi c g d a imm => Sys2Proof.Machine.execOpAddi c g d a imm s
  | .opAndi c g d a imm => Sys2Proof.Machine.execOpAndi c g d a imm s
  | .opOri c g d a imm => Sys2Proof.Machine.execOpOri c g d a imm s
  | .opXori c g d a imm => Sys2Proof.Machine.execOpXori c g d a imm s
  | .opShli c g d a sh => Sys2Proof.Machine.execOpShli c g d a sh s
  | .opShri c g d a sh => Sys2Proof.Machine.execOpShri c g d a sh s
  | .opSari c g d a sh => Sys2Proof.Machine.execOpSari c g d a sh s
  | .opSli c g d a imm => Sys2Proof.Machine.execOpSli c g d a imm s
  | .opCmp c g cc mode t a b => Sys2Proof.Machine.execOpCmp c g cc mode t a b s
  | .opCmpi c g cc mode t a imm => Sys2Proof.Machine.execOpCmpi c g cc mode t a imm s
  | .opPand c g pd pa na pb nb => Sys2Proof.Machine.execOpPand c g pd pa na pb nb s
  | .opPor c g pd pa na pb nb => Sys2Proof.Machine.execOpPor c g pd pa na pb nb s
  | .opPxor c g pd pa na pb nb => Sys2Proof.Machine.execOpPxor c g pd pa na pb nb s
  | .opPmov c g pd pa na => Sys2Proof.Machine.execOpPmov c g pd pa na s
  | .opLdb c g d a imm => Sys2Proof.Machine.execOpLdb c g d a imm s
  | .opLdbu c g d a imm => Sys2Proof.Machine.execOpLdbu c g d a imm s
  | .opLdh c g d a imm => Sys2Proof.Machine.execOpLdh c g d a imm s
  | .opLdhu c g d a imm => Sys2Proof.Machine.execOpLdhu c g d a imm s
  | .opLdw c g d a imm => Sys2Proof.Machine.execOpLdw c g d a imm s
  | .opStb c g d a imm => Sys2Proof.Machine.execOpStb c g d a imm s
  | .opSth c g d a imm => Sys2Proof.Machine.execOpSth c g d a imm s
  | .opStw c g d a imm => Sys2Proof.Machine.execOpStw c g d a imm s
  | .storePerform c => Sys2Proof.Machine.execStorePerform c s
  | .opIn c g d a imm => Sys2Proof.Machine.execOpIn c g d a imm s
  | .opOut c g d a imm => Sys2Proof.Machine.execOpOut c g d a imm s
  | .opMfs c g d n => Sys2Proof.Machine.execOpMfs c g d n s
  | .opMts c g a n => Sys2Proof.Machine.execOpMts c g a n s
  | .opPush c g a => Sys2Proof.Machine.execOpPush c g a s
  | .opPop c g d => Sys2Proof.Machine.execOpPop c g d s
  | .opBr c g off => Sys2Proof.Machine.execOpBr c g off s
  | .opCall c g off => Sys2Proof.Machine.execOpCall c g off s
  | .opJi c g a => Sys2Proof.Machine.execOpJi c g a s
  | .opCalli c g a => Sys2Proof.Machine.execOpCalli c g a s
  | .opRet c g => Sys2Proof.Machine.execOpRet c g s
  | .opWait c g d a => Sys2Proof.Machine.execOpWait c g d a s
  | .opWaitAll c g d a => Sys2Proof.Machine.execOpWaitAll c g d a s
  | .opSigev c g d a b => Sys2Proof.Machine.execOpSigev c g d a b s
  | .opYield c g => Sys2Proof.Machine.execOpYield c g s
  | .opFence c g => Sys2Proof.Machine.execOpFence c g s
  | .opHalt c g a => Sys2Proof.Machine.execOpHalt c g a s
  | .opTret c g => Sys2Proof.Machine.execOpTret c g s
  | .opTrap c g imm => Sys2Proof.Machine.execOpTrap c g imm s
  | .stepBudgetExhausted c => Sys2Proof.Machine.execStepBudgetExhausted c s
  -- tasks, flows and pools
  | .tkClrfWrite c rs => Sys2Proof.Machine.execTkClrfWrite c rs s
  | .spGoRead c rd => Sys2Proof.Machine.execSpGoRead c rd s
  | .taskDispatch r => Sys2Proof.Machine.execTaskDispatch r s
  | .taskPreempt c => Sys2Proof.Machine.execTaskPreempt c s
  | .taskMigrateLoad task => Sys2Proof.Machine.execTaskMigrateLoad task s
  | .taskMigratePenumbra task => Sys2Proof.Machine.execTaskMigratePenumbra task s
  | .taskRelease task => Sys2Proof.Machine.execTaskRelease task s
  | .releaseComplete task => Sys2Proof.Machine.execReleaseComplete task s
  | .plCreateRead c rd => Sys2Proof.Machine.execPlCreateRead c rd s
  | .plDestroyWrite c rs => Sys2Proof.Machine.execPlDestroyWrite c rs s
  | .plAllocRead c rd n => Sys2Proof.Machine.execPlAllocRead c rd n s
  | .plFreeWrite c rs => Sys2Proof.Machine.execPlFreeWrite c rs s
  | .plShareWrite c rs => Sys2Proof.Machine.execPlShareWrite c rs s
  | .plQueryWrite c rs => Sys2Proof.Machine.execPlQueryWrite c rs s
  -- programs, invocation and engines
  | .programLoad h d data => Sys2Proof.Machine.execProgramLoad h d data s
  | .programUnload h d => Sys2Proof.Machine.execProgramUnload h d s
  | .invoke h d data => Sys2Proof.Machine.execInvoke h d data s
  | .svcResult c => Sys2Proof.Machine.execSvcResult c s
  | .svcOutbuf c => Sys2Proof.Machine.execSvcOutbuf c s
  | .svcLbaout c => Sys2Proof.Machine.execSvcLbaout c s
  | .dmaGoRead c rd => Sys2Proof.Machine.execDmaGoRead c rd s
  | .dmaComplete task ticket lanes => Sys2Proof.Machine.execDmaComplete task ticket lanes s
  | .cpGoRead c rd => Sys2Proof.Machine.execCpGoRead c rd s
  | .compressionComplete task ticket lanes => Sys2Proof.Machine.execCompressionComplete task ticket lanes s
  | .fsGoRead c rd => Sys2Proof.Machine.execFsGoRead c rd s
  | .filterScanComplete task engine lanes => Sys2Proof.Machine.execFilterScanComplete task engine lanes s
  | .engineStatRead c rd port => Sys2Proof.Machine.execEngineStatRead c rd port s
  | .scan h nsid d data => Sys2Proof.Machine.execScan h nsid d data s
  | .scanUnitFilter h => Sys2Proof.Machine.execScanUnitFilter h s
  | .filterSetLoad unit set => Sys2Proof.Machine.execFilterSetLoad unit set s
  | .resultRead h d => Sys2Proof.Machine.execResultRead h d s
  -- key arrays and pattern sets (an upset: a key of the batch, the chain position whose bank row mismatches its
  -- shadow when it wins, and whether the reissued lookup mismatches again, R401)
  | .keyTableCreate h d data => Sys2Proof.Machine.execKeyTableCreate h d data s
  | .keyTableDestroy h d data => Sys2Proof.Machine.execKeyTableDestroy h d data s
  | .keyTableClear h d data => Sys2Proof.Machine.execKeyTableClear h d data s
  | .keyLookup h d data upsets => Sys2Proof.Machine.execKeyLookup h d data upsets s
  | .keyInsert h d data => Sys2Proof.Machine.execKeyInsert h d data s
  | .keyDelete h d data => Sys2Proof.Machine.execKeyDelete h d data s
  | .moverShift table => Sys2Proof.Machine.execMoverShift table s
  | .holeRebalance table => Sys2Proof.Machine.execHoleRebalance table s
  | .bankShadowSweep bank upsets => Sys2Proof.Machine.execBankShadowSweep bank upsets s
  | .kaLookRead c rd upsets => Sys2Proof.Machine.execKaLookRead c rd upsets s
  | .kaInsertRead c rd => Sys2Proof.Machine.execKaInsertRead c rd s
  | .kaDeleteRead c rd => Sys2Proof.Machine.execKaDeleteRead c rd s
  | .patternSetLoad h d data => Sys2Proof.Machine.execPatternSetLoad h d data s
  | .patternSetRemove h d => Sys2Proof.Machine.execPatternSetRemove h d s
  -- digest engine and key store
  | .dgOpen c alg hmac tokey flag => Sys2Proof.Machine.execDgOpen c alg hmac tokey flag s
  | .dgFinal c alg hmac tokey flag => Sys2Proof.Machine.execDgFinal c alg hmac tokey flag s
  | .digestFinalReady r ctx => Sys2Proof.Machine.execDigestFinalReady r ctx s
  | .dgClose c alg hmac tokey flag => Sys2Proof.Machine.execDgClose c alg hmac tokey flag s
  | .dgSave c alg hmac tokey flag => Sys2Proof.Machine.execDgSave c alg hmac tokey flag s
  | .dgRestore c alg hmac tokey flag => Sys2Proof.Machine.execDgRestore c alg hmac tokey flag s
  | .dgEraseKey c alg hmac tokey flag => Sys2Proof.Machine.execDgEraseKey c alg hmac tokey flag s
  | .dgDataWrite c rs => Sys2Proof.Machine.execDgDataWrite c rs s
  | .digestBlockAbsorbed r ctx lanes => Sys2Proof.Machine.execDigestBlockAbsorbed r ctx lanes s
  | .dgResultRead c rd n => Sys2Proof.Machine.execDgResultRead c rd n s
  | .derivedKeyDurable slot => Sys2Proof.Machine.execDerivedKeyDurable slot s
  | .digestSessionEvict session => Sys2Proof.Machine.execDigestSessionEvict session s
  | .digestWhole h d data => Sys2Proof.Machine.execDigestWhole h d data s
  | .digestStart h d data => Sys2Proof.Machine.execDigestStart h d data s
  | .digestContinue h d data => Sys2Proof.Machine.execDigestContinue h d data s
  | .digestFinal h d data => Sys2Proof.Machine.execDigestFinal h d data s
  | .digestAbandon h d => Sys2Proof.Machine.execDigestAbandon h d s
  | .digestEraseKeySlot h d => Sys2Proof.Machine.execDigestEraseKeySlot h d s
  | .keyCopyErase slot => Sys2Proof.Machine.execKeyCopyErase slot s
  | .ksGenerate c owner => Sys2Proof.Machine.execKsGenerate c owner s
  | .ksErase c => Sys2Proof.Machine.execKsErase c s
  -- tenant slices
  | .sliceCreate h d data => Sys2Proof.Machine.execSliceCreate h d data s
  | .sliceDestroy h d => Sys2Proof.Machine.execSliceDestroy h d s
  | .sliceDramFillComplete mib => Sys2Proof.Machine.execSliceDramFillComplete mib s
  | .sliceAdminRelay h d cmd => Sys2Proof.Machine.execSliceAdminRelay h d cmd s
  | .sliceAdminRelayRead h d cmd => Sys2Proof.Machine.execSliceAdminRelayRead h d cmd s
  | .pasidEnableChange port on => Sys2Proof.Machine.execPasidEnableChange port on s
  | .stMap c => Sys2Proof.Machine.execStMap c s
  | .stUnmap c => Sys2Proof.Machine.execStUnmap c s
  | .stUnmapSlice c => Sys2Proof.Machine.execStUnmapSlice c s
  -- temperature, supply and power states
  | .sensorSample src t code => Sys2Proof.Machine.execSensorSample src t code s
  | .thermalGraceExpiry => Sys2Proof.Machine.execThermalGraceExpiry s
  | .enforcementLevelRise => Sys2Proof.Machine.execEnforcementLevelRise s
  | .enforcementLevelFall => Sys2Proof.Machine.execEnforcementLevelFall s
  | .t2BlockStopTimeout r b => Sys2Proof.Machine.execT2BlockStopTimeout r b s
  | .sensorSelfCheck failed => Sys2Proof.Machine.execSensorSelfCheck failed s
  | .vinConversion v => Sys2Proof.Machine.execVinConversion v s
  | .vinOvervoltage v => Sys2Proof.Machine.execVinOvervoltage v s
  | .powerStateExit port => Sys2Proof.Machine.execPowerStateExit port s
  -- faults and live service
  | .queueManagerMismatch => Sys2Proof.Machine.execQueueManagerMismatch s
  | .supervisorVoteMismatch copy => Sys2Proof.Machine.execSupervisorVoteMismatch copy s
  | .eclipseBegin r cause => Sys2Proof.Machine.execEclipseBegin r cause s
  | .penumbraEnd r => Sys2Proof.Machine.execPenumbraEnd r s
  | .selfTest r failed => Sys2Proof.Machine.execSelfTest r failed s
  | .relight r => Sys2Proof.Machine.execRelight r s
  | .regionLit r => Sys2Proof.Machine.execRegionLit r s
  | .svEclipse c site => Sys2Proof.Machine.execSvEclipse c site s
  | .svRelight c site => Sys2Proof.Machine.execSvRelight c site s
  | .svRecord c cls site => Sys2Proof.Machine.execSvRecord c cls site s
  | .svRetire c site => Sys2Proof.Machine.execSvRetire c site s
  | .trDataWrite c rs => Sys2Proof.Machine.execTrDataWrite c rs s
  | .pmbAlert statusWord => Sys2Proof.Machine.execPmbAlert statusWord s
  -- field book and physical presence
  | .operatingSecond => Sys2Proof.Machine.execOperatingSecond s
  | .fieldBookFlush cause => Sys2Proof.Machine.execFieldBookFlush cause s
  | .fieldBookClear h nsid d => Sys2Proof.Machine.execFieldBookClear h nsid d s
  | .presenceArm h nsid d => Sys2Proof.Machine.execPresenceArm h nsid d s
  | .identityKeyReset h nsid d => Sys2Proof.Machine.execIdentityKeyReset h nsid d s
  | .debugPortEnable h nsid d => Sys2Proof.Machine.execDebugPortEnable h nsid d s
  | .presenceClose h nsid d => Sys2Proof.Machine.execPresenceClose h nsid d s
  | .presenceWindowOpen lowSince => Sys2Proof.Machine.execPresenceWindowOpen lowSince s
  | .armingPeriodExpiry => Sys2Proof.Machine.execArmingPeriodExpiry s
  | .presenceWindowExpiry => Sys2Proof.Machine.execPresenceWindowExpiry s
  | .serviceNChange low => Sys2Proof.Machine.execServiceNChange low s
  | .sealLoopCheck b => Sys2Proof.Machine.execSealLoopCheck b s
  -- start-up and power
  | .vaonPowerGood => Sys2Proof.Machine.execVaonPowerGood s
  | .vaonLoss => Sys2Proof.Machine.execVaonLoss s
  | .startupBegin inp => Sys2Proof.Machine.execStartupBegin inp s
  | .vcorePgTimeout => Sys2Proof.Machine.execVcorePgTimeout s
  | .nvmeMiRequest r => Sys2Proof.Machine.execNvmeMiRequest r s
  | .registerWrite port space off size v => Sys2Proof.Machine.execRegisterWrite port space off size v s
  | .linkUp port => Sys2Proof.Machine.execLinkUp port s
  | .coalescingTimeExpiry port v => Sys2Proof.Machine.execCoalescingTimeExpiry port v s
  | .eraseComplete sb => Sys2Proof.Machine.execEraseComplete sb s
  | .fieldBookFlushComplete => Sys2Proof.Machine.execFieldBookFlushComplete s
  | .supervisorResyncComplete copy ok => Sys2Proof.Machine.execSupervisorResyncComplete copy ok s
  | .queueManagerTestComplete ok => Sys2Proof.Machine.execQueueManagerTestComplete ok s
  | .recoveryComparatorChange above => Sys2Proof.Machine.execRecoveryComparatorChange above s

end Sys2Proof.Machine
end

