-- ==== Sys2Proof/Safety.lean ====
section
/-! DEFINITION. The terms that statements use: a step that answers a next state, bounds of the logs, an Opxus instruction
that issues on a core and retires there, and a host command that is answered. -/

namespace Sys2Proof.Machine

/-- A step answers a next state. -/
def Steps (s : State) : Prop := ∃ t, step s = .next t

/-! ### Bounds (R22, R518) -/

/-- A fault log holds at most 256 entries, none numbered above its newest (R518, R519). -/
def logBounded (f : Faults) : Prop := f.ring.length ≤ 256 ∧ ∀ e ∈ f.ring, e.seq ≤ f.newest

/-- The datum is a 64-bit number (R22), and the fault log and the copies that are stored with the field book are bounded
(R518). -/
def LogsBounded (s : State) : Prop :=
  s.datum < 2 ^ 64 ∧ logBounded s.faults ∧ (∀ e ∈ s.bookSlots, logBounded e.2.2) ∧
    ∀ im, s.flushImage = some im → logBounded im.2

/-! ### Instructions that issue and retire (R293, R303, R310) -/

/-- Core `c` shows `v` and an instruction with guard `g` passes the checks that come before its own: the budget is not
exhausted, the address lies in the image and the guard is true (R293, R303, R310). -/
def Issues (s : State) (c : CoreId) (g : Guard) (v : View) : Prop :=
  running s c = some v ∧ (viewFw v = true ∨ v.task.exhausted = false) ∧
    (viewPc v).toNat < imageBytes s v ∧ guardTrue v g = true

/-- Nothing but the task and the core of `v` may differ. -/
def OnlyTask (s t : State) (v : View) : Prop :=
  t = { s with tasks := t.tasks, cores := t.cores } ∧ (∀ i, i ≠ v.t → taskOf t i = taskOf s i) ∧
    ∀ j, j ≠ v.c → coreOf t j = coreOf s j

/-- The step budget after one retired instruction: a handler's instructions and firmware's are not counted, and a
program's last one sets the exhaustion flag (R303). -/
def Counted (v v' : View) : Prop :=
  if v.core.trapped = true ∨ v.task.fw = true then
    v'.task.steps = v.task.steps ∧ v'.task.exhausted = v.task.exhausted
  else if v.task.steps = 0 then v'.task.steps = 0 ∧ v'.task.exhausted = true
  else v'.task.steps = v.task.steps - 1 ∧ v'.task.exhausted = v.task.exhausted

/-- The next instruction is at `pc`, one step is counted, and beside `regs` and `preds` nothing of the task and the
core has changed. The registers that a handler's bank hides, and the bank outside a handler, keep their values
(R277, R303, R312). -/
def Advanced (v v' : View) (pc : Word) : Prop :=
  v' = { v with
    task := { v.task with regs := v'.task.regs, preds := v'.task.preds, pc := v'.task.pc, steps := v'.task.steps,
                          exhausted := v'.task.exhausted }
    core := { v.core with bankRegs := v'.core.bankRegs, bankPreds := v'.core.bankPreds, hpc := v'.core.hpc } } ∧
  viewPc v' = pc ∧ Counted v v' ∧
  (v.core.trapped = true → v'.task.pc = v.task.pc ∧
    (∀ r : Reg, 28 ≤ r.val → v'.task.regs[r] = v.task.regs[r]) ∧
    ∀ i, 4 ≤ i → v'.task.preds.getLsbD i = v.task.preds.getLsbD i) ∧
  (v.core.trapped = false → v'.core.hpc = v.core.hpc ∧ v'.core.bankRegs = v.core.bankRegs ∧
    v'.core.bankPreds = v.core.bankPreds)

/-- The registers after a write of `x` to `d`: w0 discards it (R277). -/
def setAt (v : View) (d : Reg) (x : Word) : Reg → Word := fun r => if r = d ∧ d ≠ 0 then x else rd v r

/-- The predicates after a write of `b` to `p`: p0 ignores it (R277). -/
def setPred (f : PReg → Bool) (p : PReg) (b : Bool) : PReg → Bool := fun q => if q = p ∧ p ≠ 0 then b else f q

/-- The instruction executes and retires. Of the state `s'`, which holds what it did elsewhere, and of the view `w`,
which holds what it did to its own task and core, only this differs: the next instruction is at `pc`, one step is
counted, the registers read as `reg` and the predicates as `pred`. -/
def RetiresAfter (i : Instr) (c : CoreId) (s s' : State) (w : View) (pc : Word) (reg : Reg → Word)
    (pred : PReg → Bool) : Prop :=
  ∃ t v', exec i s = .next t ∧ running t c = some v' ∧ OnlyTask s' t w ∧ Advanced w v' pc ∧
    (∀ r, rd v' r = reg r) ∧ ∀ p, rdp v' p = pred p

/-- The same for an instruction that does nothing outside its task and core. -/
def Retires (i : Instr) (c : CoreId) (s : State) (w : View) (pc : Word) (reg : Reg → Word) (pred : PReg → Bool) :
    Prop :=
  RetiresAfter i c s s w pc reg pred

/-- The instruction writes `x` to `d`, and the next one follows. -/
def RetiresWith (i : Instr) (c : CoreId) (s : State) (v : View) (d : Reg) (x : Word) : Prop :=
  Retires i c s v (viewPc v + 4) (setAt v d x) (rdp v)

/-- The core and the guard of an Opxus instruction, and whether its encoding is legal (R293, R294, R297, R299, R300). -/
def opHead : Instr → Option (CoreId × Guard × Bool)
  | .opAdd c g _ _ _ => some (c, g, true)
  | .opSub c g _ _ _ => some (c, g, true)
  | .opAnd c g _ _ _ => some (c, g, true)
  | .opOr c g _ _ _ => some (c, g, true)
  | .opXor c g _ _ _ => some (c, g, true)
  | .opAndn c g _ _ _ => some (c, g, true)
  | .opShl c g _ _ _ => some (c, g, true)
  | .opShr c g _ _ _ => some (c, g, true)
  | .opSar c g _ _ _ => some (c, g, true)
  | .opRor c g _ _ _ => some (c, g, true)
  | .opMul c g _ _ _ => some (c, g, true)
  | .opMulh c g _ _ _ => some (c, g, true)
  | .opMulhu c g _ _ _ => some (c, g, true)
  | .opDiv c g _ _ _ => some (c, g, true)
  | .opDivu c g _ _ _ => some (c, g, true)
  | .opRem c g _ _ _ => some (c, g, true)
  | .opRemu c g _ _ _ => some (c, g, true)
  | .opMin c g _ _ _ => some (c, g, true)
  | .opMax c g _ _ _ => some (c, g, true)
  | .opMinu c g _ _ _ => some (c, g, true)
  | .opMaxu c g _ _ _ => some (c, g, true)
  | .opClz c g _ _ => some (c, g, true)
  | .opPopc c g _ _ => some (c, g, true)
  | .opBfxReg c g _ _ _ => some (c, g, true)
  | .opBfxuReg c g _ _ _ => some (c, g, true)
  | .opBfiReg c g _ _ _ => some (c, g, true)
  | .opPermr c g _ _ _ => some (c, g, true)
  | .opBfx c g _ _ p w1 => some (c, g, decide (p.toNat + w1.toNat + 1 ≤ 32))
  | .opBfxu c g _ _ p w1 => some (c, g, decide (p.toNat + w1.toNat + 1 ≤ 32))
  | .opBfi c g _ _ p w1 => some (c, g, decide (p.toNat + w1.toNat + 1 ≤ 32))
  | .opPerm c g _ _ _ => some (c, g, true)
  | .opAddi c g _ _ _ => some (c, g, true)
  | .opAndi c g _ _ _ => some (c, g, true)
  | .opOri c g _ _ _ => some (c, g, true)
  | .opXori c g _ _ _ => some (c, g, true)
  | .opShli c g _ _ _ => some (c, g, true)
  | .opShri c g _ _ _ => some (c, g, true)
  | .opSari c g _ _ _ => some (c, g, true)
  | .opSli c g _ _ _ => some (c, g, true)
  | .opCmp c g cc mode _ _ _ => some (c, g, decide (cc.toNat < 12 ∧ mode.toNat < 3))
  | .opCmpi c g cc mode _ _ _ => some (c, g, decide (cc.toNat < 12 ∧ mode.toNat < 3))
  | .opPand c g _ _ _ _ _ => some (c, g, true)
  | .opPor c g _ _ _ _ _ => some (c, g, true)
  | .opPxor c g _ _ _ _ _ => some (c, g, true)
  | .opPmov c g _ _ _ => some (c, g, true)
  | .opLdb c g _ _ _ => some (c, g, true)
  | .opLdbu c g _ _ _ => some (c, g, true)
  | .opLdh c g _ _ _ => some (c, g, true)
  | .opLdhu c g _ _ _ => some (c, g, true)
  | .opLdw c g _ _ _ => some (c, g, true)
  | .opStb c g _ _ _ => some (c, g, true)
  | .opSth c g _ _ _ => some (c, g, true)
  | .opStw c g _ _ _ => some (c, g, true)
  | .opIn c g _ _ _ => some (c, g, true)
  | .opOut c g _ _ _ => some (c, g, true)
  | .opMfs c g _ _ => some (c, g, true)
  | .opMts c g _ _ => some (c, g, true)
  | .opPush c g _ => some (c, g, true)
  | .opPop c g _ => some (c, g, true)
  | .opBr c g _ => some (c, g, true)
  | .opCall c g _ => some (c, g, true)
  | .opJi c g _ => some (c, g, true)
  | .opCalli c g _ => some (c, g, true)
  | .opRet c g => some (c, g, true)
  | .opWait c g _ _ => some (c, g, true)
  | .opWaitAll c g _ _ => some (c, g, true)
  | .opSigev c g _ _ _ => some (c, g, true)
  | .opYield c g => some (c, g, true)
  | .opFence c g => some (c, g, true)
  | .opHalt c g _ => some (c, g, true)
  | .opTret c g => some (c, g, true)
  | .opTrap c g _ => some (c, g, true)
  | _ => none

/-- The instruction traps and so ends its program task: the core keeps the trap registers and runs nothing, and log 0xC4
records cause, tpc and tval (R312, R313, R314). -/
def TrapsWith (i : Instr) (s : State) (v : View) (cause : Nat) (tval : Word) (code : Nat) : Prop :=
  ∃ t, exec i s = .next t ∧ (coreOf t v.c).run = none ∧ (coreOf t v.c).tpc = viewPc v &&& 0xFFFFFF#32 ∧
    (coreOf t v.c).tval = tval ∧ (coreOf t v.c).tcause = BitVec.ofNat 32 (code * 256 + cause) ∧
    ∃ e ∈ t.faults.ring, e.cls = 0x20 ∧ e.site = coreSite v.c ∧ e.slice = v.task.slice ∧ e.aux0 = cause ∧
      e.aux1 = (viewPc v).toNat ∧ e.addr = tval.toNat

/-! ### Host commands (R79, R83) -/

/-- The completion that answers command `h`. -/
def answer (h : Sub) (st : Status) (dw0 dw1 : Nat) (data : List Byte) : Completion :=
  { h := h, sct := st.sct, sc := st.sc, dw0 := BitVec.ofNat 32 dw0, dw1 := BitVec.ofNat 32 dw1, data := data }

/-- Between `s` and `t` exactly one completion was decided, and it is `c`; it waits to be posted last (R83). -/
def Decides (s t : State) (c : Completion) : Prop := t.decided = s.decided ++ [c]

end Sys2Proof.Machine
end

