-- ==== Sys2Proof/Certificates/Slice0/Obligations.lean ====
section
/-! DEFINITION. The statements for the provers. A statement's first words name the rules of the spec that it follows; a
command that is said to be answered puts that completion last among those that wait to be posted. -/

open Sys2Proof Sys2Proof.Machine

/-- A step takes the command at the front of the queue and runs it on the state with the queue's rest. -/
def Obligations.StepRunsFront : Prop :=
  ∀ (c : Instr) (s : State), step { s with pending := c :: s.pending } = exec c s

/-- R22, R23, R26: on an empty queue a tick of the datum passes while VAON holds: the datum and every copy of it count
modulo 2⁶⁴, and nothing else changes. That the tick is what a step does on an empty queue is the model's choice
(assumption 2). -/
def Obligations.EmptyQueueTicks : Prop :=
  ∀ s : State, s.pending = [] →
    step s = .next (if s.vaon then
      { s with datum := (s.datum + 1) % 2 ^ 64, copies := s.copies.map fun c => (c.1, (c.2 + 1) % 2 ^ 64) } else s)

/-- R23: every command is carried out in every state: none ends in a fault or a refusal. The queue of waiting commands
stays as it is, and no command moves the datum but those by which VAON comes and goes. Where the spec leaves a choice
it follows assumptions 4 and 5. -/
def Obligations.EveryCommandCompletes : Prop :=
  ∀ (c : Instr) (s : State), ∃ t, exec c s = .next t ∧ t.pending = s.pending ∧
    (c ≠ .vaonPowerGood → c ≠ .vaonLoss → t.datum = s.datum)

/-- R548: the anti-rollback counter never falls, whatever command is at the front of the queue and in every state. -/
def Obligations.MinimumVersionNeverFalls : Prop :=
  ∀ (s t : State), step s = .next t → s.startup.minVersion ≤ t.startup.minVersion

/-- R22, R518: every step keeps the datum a 64-bit number and the fault log within its 256 entries, none of them
numbered above its newest; the same holds of the copies of the log that the field book keeps. -/
def Obligations.EveryStepKeepsLogsBounded : Prop :=
  ∀ (s t : State), LogsBounded s → step s = .next t → LogsBounded t

/-- R22, R518: the datum and the fault log, with its copies, are within their bounds at reset. -/
def Obligations.ResetLogsAreBounded : Prop :=
  LogsBounded State.reset

/-- R23, R518, R536, R542: at VAON power-good, before the first deassertion of PERST#, the datum is zero, start-up has
not begun, no port answers, no command is held or answered, no task exists, the fault log is empty and presence is
idle. The empty lists and logs are the values that the model names where the spec gives none (assumption 3). -/
def Obligations.ResetValues : Prop :=
  let s := State.reset
  s.pending = [] ∧ s.vaon = true ∧ s.datum = 0 ∧ s.oscillator = false ∧ s.ports = [] ∧ s.held = [] ∧ s.decided = [] ∧
    s.tasks = [] ∧ s.cores = [] ∧ s.faults.ring = [] ∧ s.presence.state = .idle ∧ s.startup.done = false ∧
    s.startup.input = none

/-- R517, R519, R70, R531, R532: an entry of log 0xC4 is stamped with the next SEQ, the datum, the operating seconds
and the power-cycle count; it is the newest of at most 256; the counters of its outcome saturate upwards; a detected
fault makes a flush of the field book due; an entry with an event adds that event on every present port. Nothing but
the log, the field book and the ports changes. -/
def Obligations.FaultEntriesAreRecorded : Prop :=
  ∀ (e : LogEntry) (s : State),
    let t := record e s
    let f := s.faults
    t = { s with faults := t.faults, book := t.book, ports := t.ports } ∧
    t.faults.newest = f.newest + 1 ∧
    t.faults.ring =
      ({ e with seq := f.newest + 1, datum := s.datum, opsec := s.opsec, pcc := s.pcc } :: f.ring).take 256 ∧
    t.faults.masked = (if e.outcome = 0 then min 65535 (f.masked + 1) else f.masked) ∧
    t.faults.detected = (if e.outcome = 1 then min 65535 (f.detected + 1) else f.detected) ∧
    t.faults.maskedEver = (if e.outcome = 0 then min (2 ^ 32 - 1) (f.maskedEver + 1) else f.maskedEver) ∧
    t.faults.detectedEver = (if e.outcome = 1 then min (2 ^ 32 - 1) (f.detectedEver + 1) else f.detectedEver) ∧
    t.book.again = (if e.outcome = 1 ∧ s.book.again = none then some 1 else s.book.again) ∧
    (e.event = 0 → t.ports = s.ports) ∧
    (e.event ≠ 0 → ∀ p q, Tab.get? s.ports p = some q → q.present = true →
      ∃ q', Tab.get? t.ports p = some q' ∧ q'.events = q.events ++ [{ typ := 7, info := e.event, log := 0xC4, seq := f.newest + 1 }])

/-- R25, R26, R30, R31, R521, R522: the switch to the oscillator is a masked fault and the return to the crystal an
entry without an event; at every 65,536th tick, and at no other, a broadcast reloads every copy of the datum, and a
copy found different is a masked fault of its region; an armed alarm that the datum has reached sets its flag and FIRED
and clears ARM, and changes no other task. -/
def Obligations.ClockCopiesAndAlarms : Prop :=
  ∀ (s : State),
    (s.oscillator = false → exec .clockSourceSwitch s = .next (recordMasked
      { level := 3, cls := 0x0C, site := { kind := 11, index := 8 }, aux0 := 0 } { s with oscillator := true })) ∧
    (s.oscillator = true → exec .crystalReturn s = .next (recordNote
      { level := 3, cls := 0x0C, site := { kind := 11, index := 8 }, aux0 := 1 } 0 { s with oscillator := false })) ∧
    (∀ upsets, s.datum % 65536 ≠ 0 → exec (.datumBroadcast upsets) s = .next s) ∧
    (s.datum % 65536 = 0 → (∀ c ∈ s.copies, c.2 = s.datum) →
      exec (.datumBroadcast []) s = .next { s with copies := s.copies.map fun c => (c.1, s.datum) }) ∧
    (∀ l r v l', s.datum % 65536 = 0 → s.copies = l ++ (r, v) :: l' → (∀ c ∈ l ++ l', c.2 = s.datum) → v ≠ s.datum → r < 8 →
      exec (.datumBroadcast []) s = .next { recordMasked
        { level := 2, cls := 0x0B, site := { kind := 2, index := r }, addr := s.datum } s with
          copies := s.copies.map fun c => (c.1, s.datum) }) ∧
    (∀ r v w, s.datum % 65536 = 0 → s.copies = [(r, v)] → w ≠ s.datum → r < 8 →
      exec (.datumBroadcast [(r, w)]) s = .next { recordMasked
        { level := 2, cls := 0x0B, site := { kind := 2, index := r }, addr := s.datum } { s with copies := [(r, w)] } with
          copies := [(r, s.datum)] }) ∧
    (∀ n k, taskOf s n = some k → k.ports.arm = true →
      k.ports.alarmHi.toNat * 2 ^ 32 + k.ports.alarmLo.toNat ≤ s.datum → ∃ t k', exec (.datumAlarmFire n) s = .next t ∧
      t = { s with tasks := t.tasks } ∧ (∀ i, i ≠ n → taskOf t i = taskOf s i) ∧ taskOf t n = some k' ∧
      k'.ports = { k.ports with arm := false, fired := true } ∧
      k'.flags = k.flags ||| (1#32 <<< (k.ports.alarmFlag % 32)) ∧
      k'.delivered = k.delivered ||| (1#32 <<< (k.ports.alarmFlag % 32)))

/-- R12, R13, R15, R17 to R19, R49 to R54, R60: an arbiter grants one request when it is free and has power, of those
that it may grant: for what it serves, of a powered member in service, at most 512 bytes long. Of deadline requests
none goes before the one granted; a deadline that has passed is counted as late, and the deadline of budgeted work is
spent. A clean transfer frees its arbiter; a parity mismatch that the repeat cleared is a masked fault; a second one
and a code violation are faults of the receiver. A handshake open beyond its level's bound is a fault of its unit. The
bounds are 200, 2,000, 20,000 and 200,000 ticks. -/
def Obligations.ArbitersAndHandshakes : Prop :=
  ∀ (s : State) (a : ArbId) (r : ArbReq) (d : Nat) (site : Site) (lvl : Level),
    let x := arbOf s a
    let granted := setArb a { x with granted := some r } s
    let may := fun q : ArbReq => arbServes a q.resource = true ∧ arbMember a q.unit = true ∧ grantable s q.unit = true ∧
      q.arrival ≤ s.datum ∧ 0 < q.bytes ∧ q.bytes ≤ 512
    (x.granted = none → arbPowered s a = true → may r →
      ((∀ b, r.work ≠ .budgeted b) → deadlineOf s r = some d → s.datum ≤ d → exec (.arbiterGrant a [r]) s = .next granted) ∧
      ((∀ b, r.work ≠ .budgeted b) → deadlineOf s r = some d → d < s.datum → exec (.arbiterGrant a [r]) s =
        .next (bookCount 19 { granted with late := min (2 ^ 32 - 1) (s.late + 1) })) ∧
      (∀ b, r.work = .budgeted b → budgetRate s b ≠ 0 →
        let e := max r.arrival (Tab.getD s.ledger (budgetKey b) 0) + (r.bytes * 100 + budgetRate s b - 1) / budgetRate s b
        s.datum ≤ e → exec (.arbiterGrant a [r]) s =
          .next { granted with ledger := Tab.set s.ledger (budgetKey b) e }) ∧
      (deadlineOf s r = none → exec (.arbiterGrant a [r]) s = .next (setArb a
        { granted := some r, served := Tab.set x.served r.slice (Tab.getD x.served r.slice 0 + 1) } s)) ∧
      (∀ q e, (∀ b, r.work ≠ .budgeted b) → deadlineOf s r = some d → deadlineOf s q = some e → s.datum ≤ d → d < e →
        e < s.datum + 2 ^ 31 →
        exec (.arbiterGrant a [q, r]) s = .next granted ∧ exec (.arbiterGrant a [r, q]) s = .next granted) ∧
      (∀ q, (∀ b, r.work ≠ .budgeted b) → deadlineOf s r = some d → s.datum ≤ d → deadlineOf s q = none →
        exec (.arbiterGrant a [q, r]) s = .next granted)) ∧
    (x.granted = none → arbPowered s a = false → exec (.arbiterGrant a [r]) s = .next s) ∧
    (x.granted = none → arbPowered s a = true → (unitRetired s r.unit = true ∨ sitePowered s r.unit = false ∨ 512 < r.bytes) →
      exec (.arbiterGrant a [r]) s = .next s) ∧
    (∀ seen, x.granted = some r → sitePowered s site = true → seen.data.length ≤ r.bytes →
      let free := setArb a { x with granted := none } s
      (firstViolation seen = none → badLane seen.data = none →
        exec (.fabricTransfer a site seen) s = .next free) ∧
      (∀ lane, firstViolation seen = none → badLane seen.data = some lane → badLane seen.again = none →
        exec (.fabricTransfer a site seen) s = .next (recordMasked
          { level := levelOf site, cls := 0x02, site := site, aux0 := lane, aux1 := 1 } free)) ∧
      (∀ lane n, firstViolation seen = none → badLane seen.data = some lane → badLane seen.again = some n →
        exec (.fabricTransfer a site seen) s = .next (siteFault
          { level := levelOf site, cls := 0x02, site := site, aux0 := lane } site true free)) ∧
      (∀ n, firstViolation seen = some n → exec (.fabricTransfer a site seen) s = .next (siteFault
        { level := levelOf site, cls := 0x01, site := site, aux0 := n } site true free))) ∧
    (∀ c n (w : BitVec 2), codeViolated [3#2] = true ∧ codeViolated [0#2, w, 0#2] = decide (w = 3#2) ∧
      codeViolated [1#2, 2#2] = true ∧ firstViolation { wires := [(n, [c])] } = if c = 3#2 then some n else none) ∧
    (∀ x : BitVec 9, badLane [x] = if (List.range 9).countP (fun i => x.getLsbD i) % 2 = 0 then none else some 0) ∧
    (∀ since u, levelBound lvl < s.datum - since → site = { kind := 3, index := u } →
      exec (.stallSentinelExpiry lvl site since) s = .next (retireUnit site true (recordMasked
        { level := levelCode lvl, cls := 0x03, site := site, aux0 := levelCode lvl, aux1 := s.datum - since }
        (toSpacer (fun t => decide (t = site)) s)))) ∧
    (∀ since, s.datum - since ≤ levelBound lvl → exec (.stallSentinelExpiry lvl site since) s = .next s) ∧
    levelBound .cell = 200 ∧ levelBound .block = 2000 ∧ levelBound .region = 20000 ∧ levelBound .chip = 200000

/-- R32, R35 to R39, R44, R45, R57, R58: the end of a window of 10,000 ticks sets the region's pace, minimum and
maximum; a step of the core supply moves it at most 10 mV and is checked 20,000 ticks later; a readback within 15 mV
passes, one beyond is repeated once and then frozen as a detected fault; a baseline computation starts with its
deadline and ends with its result; an idle core cell is powered off after 10,000 ticks, and a domain that was powering
up is on at power-good. -/
def Obligations.PaceSupplyAndBaseline : Prop :=
  ∀ (s : State) (r : RegionId),
    let g := region s r.val
    let v := s.vcore
    (∀ cycles, g.state ≠ .umbra → g.state ≠ .retired → domainOn s r.val 46 = true → g.windowAt + 10000 ≤ s.datum →
      643 ≤ cycles * 1000 / max 1 (Config.nominalCycles r.val) → ∃ t, exec (.paceWindowEnd r cycles) s = .next t ∧
      t = { s with regions := t.regions, book := t.book } ∧ (∀ q, q ≠ r.val → region t q = region s q) ∧
      (let p := min 65535 (cycles * 1000 / max 1 (Config.nominalCycles r.val))
       region t r.val = { g with pace := p, paceMin := if g.paceMax = 0 then p else min g.paceMin p,
                                 paceMax := max g.paceMax p, windowAt := g.windowAt + 10000,
                                 lowWindows := 0 })) ∧
    (∀ cycles, s.datum < g.windowAt + 10000 → exec (.paceWindowEnd r cycles) s = .next s) ∧
    (vcoreMayStep s = true → vcoreNext s ≠ v.vset → ∃ t, exec .vcoreStep s = .next t ∧
      t = { s with regions := t.regions, vcore := t.vcore } ∧
      t.vcore = { v with vset := vcoreNext s, lastCmd := s.datum, checks := v.checks ++ [(s.datum + 20000, false)] } ∧
      t.vcore.vset ≤ v.vset + 10 ∧ v.vset ≤ t.vcore.vset + 10) ∧
    (∀ d again rest mv, v.checks = (d, again) :: rest → d ≤ s.datum → mv ≤ v.vset + 15 → v.vset ≤ mv + 15 →
      exec (.vcoreReadbackCheck mv true) s = .next { s with vcore := { v with vread := mv, checks := rest } }) ∧
    (∀ d rest mv, v.checks = (d, false) :: rest → d ≤ s.datum → v.vset + 15 < mv ∨ mv + 15 < v.vset →
      exec (.vcoreReadbackCheck mv true) s = .next { s with vcore :=
        { v with vread := mv, checks := rest ++ [(s.datum + 20000, true)], lastCmd := s.datum } }) ∧
    (∀ d rest mv, v.checks = (d, true) :: rest → d ≤ s.datum → v.vset + 15 < mv ∨ mv + 15 < v.vset →
      exec (.vcoreReadbackCheck mv true) s = .next (recordDetected
        { level := 3, cls := 0x0D, site := { kind := 11, index := 9 }, aux0 := v.vset, aux1 := mv }
        { s with vcore := { v with vread := mv, checks := rest, frozen := true } })) ∧
    (∀ n, exec (.baselineComputationStart n) s = .next
      { s with base := { s.base with running := true, trigger := n, deadline := s.datum + 1000000 } }) ∧
    (s.base.running = true → s.base.held = [] → s.supply.held = [] → s.resvs = [] →
      exec .baselineComputationDone s = .next
        { s with base := { computeBase s s.base.trigger s.supply.ps with running := false, held := [] } }) ∧
    (∀ c : CoreId, (coreOf s c.val).run = none → (coreOf s c.val).idleSince + 10000 ≤ s.datum →
      domainOn s (regionOf c) (c.val % 32) = true → openGrant s { kind := 0, index := c.val } = false → s.powerQueue = [] →
      ∃ t, exec (.coreCellPowerOff c) s = .next t ∧ t = { s with domains := t.domains, arbiters := t.arbiters } ∧
        t.domains = Tab.set s.domains (47 * (c.val / 32) + c.val % 32) .off) ∧
    (∀ (d : Domain) t0 wake, domainState s d.region.val d.index = .poweringUp t0 wake → s.powerQueue = [] → d.index < 40 ∨ d.index = 44 ∨ d.index = 45 →
      exec (.domainPowerGood d) s = .next { s with domains := Tab.set s.domains (47 * d.region.val + d.index) .on }) ∧
    (∀ (d : Domain) t0 wake k rest, domainState s d.region.val d.index = .poweringUp t0 wake → s.powerQueue = k :: rest →
      d.index < 40 ∨ d.index = 44 ∨ d.index = 45 → ∃ t, exec (.domainPowerGood d) s = .next t ∧
        t = { s with domains := t.domains, powerQueue := t.powerQueue } ∧
        (poweringCount { s with domains := Tab.set s.domains (47 * d.region.val + d.index) .on } = 7 →
          t.powerQueue = rest ∧ Tab.get? t.domains k = some (.poweringUp s.datum false)))

/-- R61, R62, R64 to R69, R71 to R73, R79 to R81, R83, R92, R95 to R97, R103, R461: the reset of a port leaves it
without queues, vectors and commands; CC.EN makes a controller ready with its admin queues, clearing it takes slice 0's
queues and commands away, and CC.SHN ends with a clean checkpoint; a register write reaches doorbells, vectors and AQA,
and the registers of the configuration space, of BAR0 and of BAR2 read as the spec gives them. A doorbell moves a tail
or a head, or raises the error event of a missing queue or an invalid value; a command is fetched from a queue with
work when the device has room, a decided completion is posted to its queue unless it is full, a vector is unmasked or
signalled, and a pending event is reported on the oldest request. Where the spec leaves a choice it follows assumptions
29, 58 and 59. -/
def Obligations.ControllersAndDoorbells : Prop :=
  (∀ (s : State) (p : PortId),
    let q := portOf s p
    let quiet := s.invs = [] ∧ s.scans = [] ∧ s.waitingInvokes = [] ∧ s.sessions = [] ∧ s.turns = [] ∧ s.supply.ps = 0 ∧
      ∀ e ∈ s.slices, e.2.state ≠ .destroying
    (∀ k, q.present = true → quiet → ∃ t, exec (.portReset p k) s = .next t ∧ (portOf t p).en = false ∧
      (portOf t p).rdy = false ∧ (portOf t p).pasidEnable = false ∧ (portOf t p).sqs = [] ∧ (portOf t p).cqs = [] ∧
      (portOf t p).vectors = [] ∧ (portOf t p).aers = [] ∧
      (portOf t p).linkUp = (q.linkUp && decide (k ≠ .linkDown)) ∧
      t.held = s.held.filter (fun c => decide (c.h.port ≠ p)) ∧
      t.decided = s.decided.filter (fun c => decide (c.h.port ≠ p)) ∧
      t.writes = s.writes.filter fun w => decide (w.h.port ≠ p)) ∧
    (∀ k, q.present = false → quiet → exec (.portReset p k) s = .next s) ∧
    (q.present = true → exec (.linkUp p) s = .next (setPort s p { q with linkUp := true })) ∧
    (q.present = true →
      let got := fun v => Host.Outcome.next (setPort s p { q with lastRead := v, hiCapture := none })
      exec (.swDatumLoRead p (.bar 2) 0x100020 4) s =
        .next (setPort s p { q with lastRead := s.datum % 2 ^ 32, hiCapture := some (s.datum / 2 ^ 32) }) ∧
      exec (.swDatumLoRead p (.bar 2) 0x100020 8) s = got s.datum ∧
      exec (.swDatumLoRead p (.bar 2) 0x100024 4) s = got (q.hiCapture.getD (s.datum / 2 ^ 32)) ∧
      exec (.swDatumLoRead p (.bar 2) 0x100026 4) s = got 0xFFFFFFFF ∧
      exec (.swDatumLoRead p (.bar 0) 0 8) s = got 0x0840_0029_0803_FFFF ∧
      exec (.swDatumLoRead p (.bar 0) 8 4) s = got 0x0002_0000 ∧
      (∀ n, exec (.swDatumLoRead p (.bar 0) (4096 * (n + 1)) 4) s = got 0) ∧
      exec (.swDatumLoRead p (.config (.bar 4)) 0 4) s = got 0 ∧
      exec (.swDatumLoRead p (.config .classCode) 0 4) s = got (0x010802 * 256 + Config.pciRevision % 256) ∧
      (∀ v, v < 2 ^ 32 → exec (.registerWrite p (.config (.bar 0)) 0 4 v) s =
        .next (setPort s p { q with pci := { q.pci with bar0 := q.pci.bar0 / 2 ^ 32 * 2 ^ 32 + v / 2 ^ 27 * 2 ^ 27 } }))) ∧
    (∀ cc, q.present = true → q.en = false → q.rdy = false → q.cfs = false → s.startup.done = true →
      s.startup.stopped = false → cc.toNat / 16 % 8 = 0 → cc.toNat / 128 % 16 ≤ 4 → cc.toNat / 2048 % 8 ≤ 1 →
      cc.toNat / 65536 % 16 = 6 → cc.toNat / 1048576 % 16 = 4 → ∃ t, exec (.ccEnable p cc) s = .next t ∧
      t = { s with ports := t.ports } ∧ (portOf t p).en = true ∧ (portOf t p).rdy = true ∧
      Tab.get? (portOf t p).sqs 0 = some { slice := 0, size := q.aqa % 4096 + 1 } ∧
      Tab.get? (portOf t p).cqs 0 = some { slice := 0, size := q.aqa / 65536 % 4096 + 1 }) ∧
    (q.en = true → quiet → ∃ t, exec (.ccDisable p) s = .next t ∧ (portOf t p).en = false ∧ (portOf t p).rdy = false ∧
      (∀ x ∈ (portOf t p).sqs, x.2.slice ≠ 0) ∧
      (portOf t p).cqs = q.cqs.filter (fun x => decide (x.2.slice ≠ 0)) ∧
      (let gone := fun h : Sub => decide (h.port = p) && decide (actSlice s h = 0)
       t.held = s.held.filter (fun c => !gone c.h) ∧ t.decided = s.decided.filter (fun c => !gone c.h) ∧
       t.writes = s.writes.filter fun w => !gone w.h)) ∧
    (q.en = false → exec (.ccDisable p) s = .next s) ∧
    (∀ n, q.present = true → n = 1 ∨ n = 2 → ∃ t, exec (.ccShutdown p n) s = .next t ∧
      (portOf t p).shn = n ∧ (portOf t p).shst = 2 ∧ t.media.clean = true ∧
      (∃ c, t.media.checkpoints = (c :: s.media.checkpoints).take 2 ∧ c.p = s.media.seq) ∧
      (dirtyPages s = [] → t = { setPort s p { q with shn := n, shst := 2 } with media := t.media, drawn := t.drawn } ∧
        t.media.pages = s.media.pages)) ∧
    (q.present = true →
      (∀ n v, n < 16385 → exec (.registerWrite p (.bar 0) (4096 * n + 4096) 4 v) s = exec (.sqTailDoorbell p n (v % 65536)) s ∧
        exec (.registerWrite p (.bar 0) (4096 * n + 6144) 4 v) s = exec (.cqHeadDoorbell p n (v % 65536)) s) ∧
      (∀ n, n < 2048 → exec (.registerWrite p (.bar 2) (16 * n + 12) 4 0) s = exec (.msixVectorUnmask p n) s) ∧
      (∀ v, exec (.registerWrite p (.bar 0) 0x1C 4 v) s = .next s) ∧
      ∀ v, q.en = false →
        exec (.registerWrite p (.bar 0) 0x24 4 v) s = .next (setPort s p { q with aqa := v % 2 ^ 32 }))) ∧
  (∀ (s : State) (p : PortId) (n v : Nat),
    let q := portOf s p
    (∀ x, Tab.get? q.sqs n = some x → x.deleting = none → v < x.size → x.tail < x.size → v ≠ x.tail →
      exec (.sqTailDoorbell p n v) s = .next (setPort s p { q with sqs := Tab.set q.sqs n { x with
          tail := v, bells := x.bells ++ [((v + x.size - x.tail) % x.size, s.datum)] } })) ∧
    (Tab.get? q.sqs n = none →
      exec (.sqTailDoorbell p n v) s = .next (setPort s p (queueEvent { typ := 0, info := 0, log := 1 } q))) ∧
    (∀ x, Tab.get? q.sqs n = some x → x.deleting = none → x.size ≤ v →
      exec (.sqTailDoorbell p n v) s = .next (setPort s p (queueEvent { typ := 0, info := 1, log := 1 } q))) ∧
    (∀ x, Tab.get? q.cqs n = some x → v < x.size → (v + x.size - x.head) % x.size ≤ x.entries.length →
      exec (.cqHeadDoorbell p n v) s = .next (setPort s p { q with cqs := Tab.set q.cqs n { x with
          head := v, entries := x.entries.drop ((v + x.size - x.head) % x.size) } })) ∧
    (∀ x b rest cid opc d10 cls tn, Tab.get? q.sqs n = some x → nextFetch s q = some (n, cls, tn) → x.bells = b :: rest →
      x.deleting = none →
      let h : Sub := { port := p, sq := n, cid := cid }
      let took := { setPort s p { q with
          turn := advanceTurn s.features.arb n cls tn
          sqs := Tab.set q.sqs n { x with bells := if b.1 ≤ 1 then rest else (b.1 - 1, b.2) :: rest, fetched := x.fetched + 1 } } with
        held := s.held ++ [{ h := h, bell := b.2, urgent := urgentQueue q x }]
        smart := { s.smart with busyNow := true } }
      (entryRefusal n opc d10 = none → exec (.commandFetch p n cid opc d10) s = .next took) ∧
      ∀ st, entryRefusal n opc d10 = some st → exec (.commandFetch p n cid opc d10) s = .next (completeAt h st 0 0 [] 0 0 took)) ∧
    (∀ x, q.sqs.filter (fetchable s q) = [(n, x)] → n ≠ 0 → q.ams = 0 → ∃ tn, nextFetch s q = some (n, 4, tn)) ∧
    (∀ x, q.sqs.filter (fetchable s q) = [(0, x)] → nextFetch s q = some (0, 0, q.turn)) ∧
    (∀ opc d10, 0 < n → ioOpcodes.contains opc = false → entryRefusal n opc d10 = some { sct := 0, sc := 1 }) ∧
    (∀ cid opc d10, 65536 ≤ s.held.length → exec (.commandFetch p n cid opc d10) s = .next s) ∧
    (∀ y x c rest, Tab.get? q.cqs n = some y → y.slice = 0 → q.rdy = true → s.thermal.t3 = false →
      y.entries.length + 1 < y.size → y.ien = false → s.decided = c :: rest → c.h.port = p →
      Tab.get? q.sqs c.h.sq = some x → x.cqid = n → (∀ w ∈ s.writes, w.h ≠ c.h) → s.supply.held = [] →
      (∀ z ∈ q.sqs, z.2.deleting = none) → s.turns = [] → (∀ e ∈ s.slices, e.2.state ≠ .destroying) → ∃ t, exec (.completionPost p n) s = .next t ∧
      t = { s with ports := t.ports, decided := rest, held := s.held.filter fun z => decide (z.h ≠ c.h) } ∧
      Tab.get? (portOf t p).cqs n = some { y with entries := y.entries ++ [c] } ∧ (portOf t p).sqs = q.sqs) ∧
    (∀ y, Tab.get? q.cqs n = some y → y.size ≤ y.entries.length + 1 → s.turns = [] → (∀ e ∈ s.slices, e.2.state ≠ .destroying) →
      exec (.completionPost p n) s = .next s) ∧
    (n < 2048 →
      let w := Tab.getD q.vectors n {}
      let w' := if w.pending then { w with masked := false, pending := false, signals := w.signals + 1, held := 0 }
        else { w with masked := false }
      exec (.msixVectorUnmask p n) s = .next (setPort s p { q with vectors := Tab.set q.vectors n w' })) ∧
    (let w := Tab.getD q.vectors n {}
     let w' := { w with pending := false, signals := w.signals + 1, held := 0 }
     0 < w.held → w.heldSince + s.features.coalTime * 10000 ≤ s.datum → w.masked = false →
       exec (.coalescingTimeExpiry p n) s = .next (setPort s p { q with vectors := Tab.set q.vectors n w' })) ∧
    (∀ h : Sub, h.port = p → q.aers.length < 16 →
      exec (.asynchronousEventRequest h) s =
        .next (setPort s p { q with aers := q.aers ++ [h] })) ∧
    (∀ h : Sub, h.port = p → 16 ≤ q.aers.length →
      exec (.asynchronousEventRequest h) s = .next (completeAt h (sCmd 0x05) 0 0 [] 0 0 s)) ∧
    (∀ h hs e es, q.aers = h :: hs → q.events = e :: es → (∀ u ∈ q.unread, u.typ ≠ e.typ) →
      exec (.asyncEventPost p) s = .next { s with
        ports := Tab.set s.ports p.val { q with aers := hs, events := es, unread := q.unread ++ [e] }
        decided := s.decided ++ [answer h sOk (e.typ + e.info * 256 + e.log * 65536) 0 []] }))

/-- R78, R80, R84, R94, R95: i/O queues are created with their size, vector and completion queue, and deleted when
nothing uses them; the commands of a deleted submission queue that are not in progress are aborted; a missing queue, a
queue in use, PC 0 and a missing completion queue are refused with their status; Abort of at most 256 at once completes
with Dword 0 bit 0 set. Where the spec leaves a choice it follows assumption 58. -/
def Obligations.QueueCommands : Prop :=
  ∀ (h : Sub) (s : State) (n size : Nat),
    let q := portOf s h.port
    let ok := { s with decided := s.decided ++ [answer h sOk 0 0 []] }
    (∀ ien iv, qidOk s 0 h.port n false = true → Tab.get? q.cqs n = none → 0 < size → size ≤ 65535 →
      vectorOk s 0 h.port iv = true → exec (.createIoCompletionQueue h n size true ien iv) s = .next (setPort ok h.port
        { q with cqs := Tab.set q.cqs n { size := size + 1, vector := iv, ien := ien } })) ∧
    (∀ y prio cq, qidOk s 0 h.port n true = true → Tab.get? q.sqs n = none → 0 < size → size ≤ 65535 → cq ≠ 0 →
      Tab.get? q.cqs cq = some y → y.slice = 0 → exec (.createIoSubmissionQueue h n size true prio cq) s = .next (setPort ok h.port
        { q with sqs := Tab.set q.sqs n { size := size + 1, prio := prio % 4, cqid := cq } })) ∧
    (∀ ien iv, exec (.createIoCompletionQueue h n size false ien iv) s = .next (completeAt h sField 0 0 [] 0 0 s)) ∧
    (∀ prio cq, qidOk s 0 h.port n true = true → Tab.get? q.sqs n = none → 0 < size → size ≤ 65535 →
      Tab.get? q.cqs cq = none →
      exec (.createIoSubmissionQueue h n size true prio cq) s = .next (completeAt h (sCmd 0x00) 0 0 [] 0 0 s)) ∧
    (∀ y, Tab.get? q.cqs n = some y → n ≠ 0 → y.slice = 0 → (∀ x ∈ q.sqs, x.2.cqid ≠ n) →
      exec (.deleteIoCompletionQueue h n) s =
        .next (setPort ok h.port { q with cqs := Tab.erase q.cqs n })) ∧
    (∀ y x i, Tab.get? q.cqs n = some y → n ≠ 0 → y.slice = 0 → (i, x) ∈ q.sqs → x.cqid = n →
      exec (.deleteIoCompletionQueue h n) s = .next (completeAt h (sCmd 0x0C) 0 0 [] 0 0 s)) ∧
    (∀ x, Tab.get? q.sqs n = some x → n ≠ 0 → x.slice = 0 → x.deleting = none → x.bells = [] →
      (∀ y ∈ q.sqs, y.2.deleting = none) → (∀ c ∈ s.held, c.h.port = h.port → c.h.sq ≠ n) →
      (∀ c ∈ s.decided, c.h.port = h.port → c.h.sq ≠ n) → s.writes = [] → s.invs = [] → s.scans = [] →
      s.waitingInvokes = [] → ∃ t, exec (.deleteIoSubmissionQueue h n) s = .next t ∧
        t = { ok with ports := t.ports } ∧ Tab.get? (portOf t h.port).sqs n = none ∧ (portOf t h.port).cqs = q.cqs) ∧
    (∀ x, Tab.get? q.sqs n = some x → n ≠ 0 → x.slice = 0 → x.deleting = none → s.invs = [] → s.scans = [] →
      s.waitingInvokes = [] → ∃ t, exec (.deleteIoSubmissionQueue h n) s = .next t ∧
        ∀ c ∈ s.held, c.h.port = h.port → c.h.sq = n → inProgress s c.h = false → (∀ d ∈ s.decided, d.h ≠ c.h) →
          answer c.h sSqDeleted 0 0 [] ∈ t.decided) ∧
    (Tab.get? q.sqs n = none →
      exec (.deleteIoSubmissionQueue h n) s = .next (completeAt h (sCmd 0x01) 0 0 [] 0 0 s)) ∧
    (∀ sq cid, q.aborts.length < 256 → exec (.abort h sq cid) s = .next { s with
      ports := Tab.set s.ports h.port.val { q with aborts := q.aborts ++ [h] }
      decided := s.decided ++ [answer h sOk 1 0 []] }) ∧
    (∀ sq cid, 256 ≤ q.aborts.length → exec (.abort h sq cid) s = .next (completeAt h (sCmd 0x03) 0 0 [] 0 0 s))

/-- R78, R80, R86, R103, R104, R252, R271, R475, R487, R491, R493: each Set Features changes its feature, and with SAVE
the saved value, or refuses what is not valid or not saveable; Get Features returns the current, default or saved value
or what may be done with the feature, and an unknown feature is refused. Where the spec leaves a choice it follows
assumptions 63 and 64. -/
def Obligations.FeatureCommands : Prop :=
  ∀ (h : Sub) (s : State) (save : Bool),
    let f := s.features
    let ok := fun f' : Features => { s with features := f', decided := s.decided ++ [answer h sOk 0 0 []] }
    let no := fun st : Status => completeAt h st 0 0 [] 0 0 s
    let get := fun (x : Nat) (bs : List Byte) => { s with decided := s.decided ++ [answer h sOk x 0 bs] }
    (∀ ab lpw mpw hpw, ab < 8 → lpw < 256 → mpw < 256 → hpw < 256 →
      let v := ab + lpw * 2 ^ 8 + mpw * 2 ^ 16 + hpw * 2 ^ 24
      exec (.setFeaturesArbitration h save ab lpw mpw hpw) s =
        .next (ok { f with arb := v, arbSaved := if save then some v else f.arbSaved })) ∧
    (∀ ps wh, (4 < ps ∨ wh ≠ 0) → exec (.setFeaturesPowerManagement h false ps wh) s = .next (no sField)) ∧
    (∀ ps wh, exec (.setFeaturesPowerManagement h true ps wh) s = .next (no (sCmd 0x0D))) ∧
    (∀ ps, ps ≤ 4 → s.base.running = true → exec (.setFeaturesPowerManagement h false ps 0) s =
      .next { s with base := { s.base with held := s.base.held ++ [.power h ps] } }) ∧
    (∀ ps, ps ≤ 4 → s.base.running = false → s.dump.active = false → s.dump.brownOut = false →
      effectivePs (setReqPs h.port ps s) = s.supply.ps → exec (.setFeaturesPowerManagement h false ps 0) s =
        .next { setReqPs h.port ps s with decided := s.decided ++ [answer h sOk 0 0 []] }) ∧
    (∀ sel th k, sel ≤ 8 → th ≤ 1 → 200 ≤ k → k ≤ 420 →
      exec (.setFeaturesTemperatureThreshold h save sel th k) s = .next (ok { f with
        thresholds := Tab.set f.thresholds (2 * sel + th) k
        thresholdsSaved := if save then Tab.set f.thresholdsSaved (2 * sel + th) k else f.thresholdsSaved })) ∧
    (∀ sel th k, (8 < sel ∨ 1 < th ∨ k < 200 ∨ 420 < k) →
      exec (.setFeaturesTemperatureThreshold h save sel th k) s = .next (no sField)) ∧
    (∀ a b, exec (.setFeaturesNumberOfQueues h true a b) s = .next (no (sCmd 0x0D))) ∧
    (∀ a b, 65535 ≤ a ∨ 65535 ≤ b → exec (.setFeaturesNumberOfQueues h false a b) s = .next (no sField)) ∧
    (∀ a b, a < 65535 → b < 65535 → ioQueues s h.port 0 = false → exec (.setFeaturesNumberOfQueues h false a b) s = .next { s with
      features := { f with queues := Tab.set f.queues h.port.val (min a 16383, min b 16383) }
      decided := s.decided ++ [answer h sOk (min a 16383 + min b 16383 * 65536) 0 []] }) ∧
    (∀ time thr, time < 256 → thr < 256 → exec (.setFeaturesInterruptCoalescing h save time thr) s = .next (ok { f with
      coalTime := time, coalThr := thr, coalSaved := if save then some (time, thr) else f.coalSaved })) ∧
    (∀ iv cd, iv < 2048 →
      let q := portOf s h.port
      let q' := { q with vectors := Tab.set q.vectors iv { Tab.getD q.vectors iv {} with cd := cd } }
      exec (.setFeaturesInterruptVectorConfig h false iv cd) s = .next (setPort (ok f) h.port q')) ∧
    (∀ v : Word, exec (.setFeaturesAsyncEventConfig h save v) s = .next (ok { f with
      asyncCfg := v &&& 0x0B1F#32, asyncSaved := if save then some (v &&& 0x0B1F#32) else f.asyncSaved })) ∧
    (∀ ms, ms < 2 ^ 48 → exec (.setFeaturesTimestamp h false ms) s =
      .next (ok { f with tsMs := ms, tsDatum := s.datum, tsOrigin := 1 })) ∧
    (∀ v : Word, exec (.setFeaturesThermalGraceTime h save v) s = .next (if 5 ≤ v.toNat ∧ v.toNat ≤ 100 then
      ok { f with grace := v.toNat, graceSaved := if save then some v.toNat else f.graceSaved } else no sField)) ∧
    (∀ v : Word, exec (.setFeaturesInterleaveGrain h false v) s = .next (if 8 ≤ v.toNat ∧ v.toNat ≤ 16 then
      ok { f with grainNext := v.toNat } else no sField)) ∧
    (∀ v : Word, exec (.setFeaturesInterleaveGrain h true v) s = .next (no (sCmd 0x0D))) ∧
    (∀ v : Word, exec (.setFeaturesScrubPeriod h save v) s = .next (if 1 ≤ v.toNat ∧ v.toNat ≤ 168 then
      ok { f with scrub := v.toNat, scrubSaved := if save then some v.toNat else f.scrubSaved } else no sField)) ∧
    (∀ v, exec (.getFeatures h 0x01 0 v) s = .next (get f.arb []) ∧
      exec (.getFeatures h 0x0B 0 v) s = .next (get f.asyncCfg.toNat []) ∧
      exec (.getFeatures h 0xC1 0 v) s = .next (get f.grace []) ∧ exec (.getFeatures h 0xC1 1 v) s = .next (get 20 []) ∧
      exec (.getFeatures h 0xC1 2 v) s = .next (get (f.graceSaved.getD 20) []) ∧
      exec (.getFeatures h 0xC1 3 v) s = .next (get 5 []) ∧ exec (.getFeatures h 0xC2 3 v) s = .next (get 4 []) ∧
      exec (.getFeatures h 0xC2 0 v) s = .next (get (f.grainNext * 256 + f.grainInUse) []) ∧
      exec (.getFeatures h 0x0E 0 v) s = .next (get 0 (toLe 6 ((f.tsMs + (s.datum - f.tsDatum) / 100000) % 2 ^ 48) ++
        toLe 1 (f.tsOrigin * 2) ++ [0])) ∧
      ∀ fid sel, featureKnown fid = false → exec (.getFeatures h fid sel v) s = .next (no sField))

/-- R61, R84, R101, R153, R174, R196, R588: a namespace is created under the free number with its parameters, and with
its genesis link and a pending monument where it has custody evidence; a delete is refused for a sealed namespace and
else takes effect once no command uses the namespace, leaving no buffer line of it; controllers are attached and
detached; each invalid field is refused with its status. Where the spec leaves a choice it follows assumptions 10, 58,
62 and 74. -/
def Obligations.NamespacesComeAndGo : Prop :=
  ∀ (h : Sub) (s : State) (nsid : Nat),
    let no := fun st : Status => completeAt h st 0 0 [] 0 0 s
    (∀ p : NsParams, p.nsze ≠ 0 → p.anagrp ≤ 2 → p.flbas % 16 ≤ 1 → p.nsze = p.ncap → s.media.readOnly = false →
      vendorBit p 1 = false → freeNsid s = some nsid →
      let n := newNamespace 0 nsid p (fit 16 (Config.nguid s.nsMade))
      nsCharge n ≤ capFree s 0 → ∃ t n', exec (.namespaceCreate h p) s = .next t ∧
        t = { s with namespaces := t.namespaces, nsMade := s.nsMade + 1, drawn := s.drawn + 1, media := t.media,
                     ports := t.ports,
                     decided := s.decided ++ [answer h sOk nsid 0 []] } ∧
        (∀ i, i ≠ nsid → nsOf t i = nsOf s i) ∧ nsOf t nsid = some n' ∧ n' = { n with chain := n'.chain } ∧
        n.evid = vendorBit p 0 ∧ n.par2 = vendorBit p 3 ∧ (n.evid = false → n' = n ∧ t.ports = s.ports) ∧
        (n.evid = true → n'.chain.links.length = 1 ∧ n'.chain.pending.length = 1 ∧ n'.chain.monuments = [])) ∧
    (∀ p : NsParams, p.nsze = 0 ∨ 2 < p.anagrp → exec (.namespaceCreate h p) s = .next (no sField)) ∧
    (∀ p : NsParams, p.nsze ≠ 0 → p.anagrp ≤ 2 → 1 < p.flbas % 16 → exec (.namespaceCreate h p) s = .next (no (sCmd 0x0A))) ∧
    (∀ p : NsParams, p.nsze ≠ 0 → p.anagrp ≤ 2 → p.flbas % 16 ≤ 1 → p.nsze ≠ p.ncap →
      exec (.namespaceCreate h p) s = .next (no (sCmd 0x1B))) ∧
    (∀ n, nsid ≠ 0xFFFFFFFF → nsOf s nsid = some n → n.deleting = none →
      turnWaits s { h := h, slice := 0, cmd := .delete nsid } = false → exec (.namespaceDelete h nsid) s =
        .next (if n.seals = [] then setNs nsid { n with deleting := some (some h) } s else no (sVendor 0x80))) ∧
    (turnWaits s { h := h, slice := 0, cmd := .delete nsid } = true → exec (.namespaceDelete h nsid) s =
      .next { s with turns := s.turns ++ [{ h := h, slice := 0, cmd := .delete nsid }] }) ∧
    (nsid ≠ 0xFFFFFFFF → nsOf s nsid = none → turnWaits s { h := h, slice := 0, cmd := .delete nsid } = false →
      exec (.namespaceDelete h nsid) s = .next (no sNamespace)) ∧
    (∀ n, nsOf s nsid = some n → n.deleting = some (some h) → n.keySlot = none → nsInUse s nsid = false →
      (∀ r ∈ s.resvs, r.nsid ≠ nsid) → (∀ e ∈ s.namespaces, e.1 ≠ nsid → e.2.deleting ≠ some (some h)) →
      s.turns = [] → (∀ e ∈ s.slices, e.2.state ≠ .destroying) →
      ∃ t, exec (.namespaceDeleteEffect nsid) s = .next t ∧
        t = { s with namespaces := Tab.erase s.namespaces nsid, lines := t.lines, media := t.media, ports := t.ports,
                     decided := s.decided ++ [answer h sOk 0 0 []] } ∧ nsOf t nsid = none ∧
        (∀ l ∈ t.lines, l.nsid ≠ nsid) ∧ ∀ l ∈ s.lines, l.nsid ≠ nsid → l ∈ t.lines) ∧
    (∀ n, nsOf s nsid = some n → nsInUse s nsid = true → s.turns = [] → (∀ e ∈ s.slices, e.2.state ≠ .destroying) →
      exec (.namespaceDeleteEffect nsid) s = .next s) ∧
    (∀ n ctrls, nsid ≠ 0xFFFFFFFF → nsOf s nsid = some n → n.deleting = none → ctrlListOk s 0 ctrls = true →
      (∀ c ∈ ctrls, n.ctrls.contains c = false) → ∃ t, exec (.namespaceAttach h nsid ctrls) s = .next t ∧
        t = { setNs nsid { n with ctrls := n.ctrls ++ ctrls } s with
          media := t.media, ports := t.ports, decided := s.decided ++ [answer h sOk 0 0 []] }) ∧
    (∀ n ctrls, nsid ≠ 0xFFFFFFFF → nsOf s nsid = some n → n.deleting = none → ctrlListOk s 0 ctrls = true →
      (∀ c ∈ ctrls, n.ctrls.contains c = true) → ∃ t, exec (.namespaceDetach h nsid ctrls) s = .next t ∧
        t = { setNs nsid { n with ctrls := n.ctrls.filter fun c => !ctrls.contains c } s with
          media := t.media, ports := t.ports, decided := s.decided ++ [answer h sOk 0 0 []] }) ∧
    (∀ n ctrls, nsid ≠ 0xFFFFFFFF → nsOf s nsid = some n → n.deleting = none → ctrlListOk s 0 ctrls = false →
      exec (.namespaceAttach h nsid ctrls) s = .next (no (sCmd 0x1C)) ∧
      exec (.namespaceDetach h nsid ctrls) s = .next (no (sCmd 0x1C)))

/-- R76, R84, R141, R150, R174, R175: format NVM and Sanitize leave no user data, no map entry and no poison in the
namespaces they act on, and Sanitize no seal; a sealed namespace needs an open presence window; Directive Send and
Receive for Identify and Streams change and return what the standard says, and an unknown directive type or namespace
is refused. Where the spec leaves a choice it follows assumptions 32, 58, 70, 74 and 148. -/
def Obligations.FormatsSanitizesAndDirectives : Prop :=
  (∀ (h : Sub) (s : State) (nsid lbaf ses parity : Nat),
    let no := fun st : Status => completeAt h st 0 0 [] 0 0 s
    let fmt : NsTurn := { h := h, slice := 0, cmd := .format nsid lbaf ses parity }
    let san := fun act : Nat => ({ h := h, slice := 0, cmd := .sanitize act } : NsTurn)
    let allSealed := anySealed s (s.namespaces.map (·.1))
    let erased := fun (act : Nat) (t : State) => t.decided.getLast? = some (answer h sOk 0 0 []) ∧
      t.media.sanAction = act ∧ t.media.written = false ∧ (∀ x ∈ t.lines, nsOf s x.nsid = none) ∧
      ∀ i n, nsOf s i = some n → ∃ n', nsOf t i = some n' ∧ n'.blocks = [] ∧ n'.map = [] ∧ n'.poison = [] ∧
        n'.seals = [] ∧ n'.lbaf = n.lbaf ∧ n'.par2 = n.par2 ∧ n'.nsze = n.nsze ∧ n'.nguid = n.nguid
    (turnWaits s fmt = true → exec (.formatNvm h nsid lbaf ses parity) s = .next { s with turns := s.turns ++ [fmt] }) ∧
    (turnWaits s fmt = false →
      (∀ l, nsScope s 0 nsid = some l → lbaf ≤ 1 → ses ≤ 2 → parity ≤ 2 → formatAdds s parity l ≤ capFree s 0 →
        anySealed s l = false ∨ s.presence.state = .opened →
        ∃ t, exec (.formatNvm h nsid lbaf ses parity) s = .next t ∧ t.decided.getLast? = some (answer h sOk 0 0 []) ∧
          (∀ i ∉ l, nsOf t i = nsOf s i) ∧ (∀ x ∈ t.lines, x.nsid ∉ l) ∧
          ∀ i ∈ l, ∀ n, nsOf s i = some n → ∃ n', nsOf t i = some n' ∧ n'.blocks = [] ∧ n'.map = [] ∧ n'.poison = [] ∧
            n'.seals = [] ∧ n'.lbaf = lbaf ∧ n'.nguid = n.nguid ∧ n'.evid = n.evid ∧ n'.xts = n.xts ∧
            n'.par2 = (if parity = 0 then n.par2 else decide (parity = 2)) ∧
            n'.nsze = n.ncap * blockBytes n / (if lbaf = 0 then 512 else 4096)) ∧
      (nsScope s 0 nsid = none → exec (.formatNvm h nsid lbaf ses parity) s = .next (no sNamespace)) ∧
      (∀ l, nsScope s 0 nsid = some l → 1 < lbaf → exec (.formatNvm h nsid lbaf ses parity) s = .next (no (sCmd 0x0A))) ∧
      (∀ l, nsScope s 0 nsid = some l → lbaf ≤ 1 → 2 < ses ∨ 2 < parity ∨ capFree s 0 < formatAdds s parity l →
        exec (.formatNvm h nsid lbaf ses parity) s = .next (no sField)) ∧
      (∀ l, nsScope s 0 nsid = some l → lbaf ≤ 1 → ses ≤ 2 → parity ≤ 2 → formatAdds s parity l ≤ capFree s 0 →
        anySealed s l = true → s.presence.state ≠ .opened → exec (.formatNvm h nsid lbaf ses parity) s = .next (no (sVendor 0x85)))) ∧
    (turnWaits s (san 2) = true → exec (.sanitizeBlockErase h) s = .next { s with turns := s.turns ++ [san 2] }) ∧
    (turnWaits s (san 4) = true → exec (.sanitizeCryptoErase h) s = .next { s with turns := s.turns ++ [san 4] }) ∧
    (turnWaits s (san 2) = false → allSealed = true → s.presence.state ≠ .opened →
      exec (.sanitizeBlockErase h) s = .next (no (sVendor 0x85))) ∧
    (turnWaits s (san 4) = false → allSealed = true → s.presence.state ≠ .opened →
      exec (.sanitizeCryptoErase h) s = .next (no (sVendor 0x85))) ∧
    (turnWaits s (san 2) = false → allSealed = false ∨ s.presence.state = .opened →
      ∃ t, exec (.sanitizeBlockErase h) s = .next t ∧ erased 2 t) ∧
    (turnWaits s (san 4) = false → allSealed = false ∨ s.presence.state = .opened →
      ∃ t, exec (.sanitizeCryptoErase h) s = .next t ∧ erased 4 t)) ∧
  (∀ (h : Sub) (s : State) (nsid sid k d o : Nat) (v : Word),
    let no := fun st : Status => completeAt h st 0 0 [] 0 0 s
    (∀ n, nsForIo s h nsid = some n →
      let ok := fun (x : Nat) (n' : Namespace) =>
        { setNs nsid n' s with decided := s.decided ++ [answer h sOk x 0 []] }
      let data := fun bs : List Byte => { s with decided := s.decided ++ [answer h sOk 0 0 bs] }
      (d = 0 → o = 1 → v.toNat / 256 % 256 = 1 → exec (.directiveSend h nsid d o sid v) s =
        .next (ok 0 { n with streamsEnabled := v.getLsbD 0 })) ∧
      (d = 0 → o = 1 → v.toNat / 256 % 256 ≠ 1 → exec (.directiveSend h nsid d o sid v) s =
        .next (no sField)) ∧
      (d = 1 → o = 1 → sid < 65536 → resvOf s nsid sid = none →
        exec (.directiveSend h nsid d o sid v) s =
        .next (ok 0 { n with streams := n.streams.filter fun i => decide (i ≠ sid) })) ∧
      (d = 1 → o = 1 → sid < 65536 → (resvOf s nsid sid).isSome = true → exec (.directiveSend h nsid d o sid v) s =
        .next (no sField)) ∧
      (d = 1 → o = 2 → exec (.directiveSend h nsid d o sid v) s =
        .next (ok 0 { n with streamsAlloc := 0 })) ∧
      ((d, o) ∉ [(0, 1), (1, 1), (1, 2)] → exec (.directiveSend h nsid d o sid v) s =
        .next (no sField)) ∧
      (d = 0 → o = 1 → ∃ bs, exec (.directiveReceive h nsid d o sid k) s =
        .next (data bs) ∧ bs.length = 4096 ∧ field bs 0 1 = 3 ∧
        field bs 32 1 = (if n.streamsEnabled then 3 else 1)) ∧
      (d = 1 → o = 1 → n.streamsAlloc < 65536 → n.streams.length < 65536 → ∃ bs, exec (.directiveReceive h nsid d o sid k) s =
        .next (data bs) ∧ bs.length = 32 ∧
        field bs 0 2 = 4096 ∧ field bs 20 2 = (if n.par2 then 30 else 31) ∧ field bs 22 2 = n.streamsAlloc ∧
        field bs 24 2 = n.streams.length) ∧
      (d = 1 → o = 2 → exec (.directiveReceive h nsid d o sid k) s =
        .next (data (toLe 2 n.streams.length ++ n.streams.flatMap (toLe 2)))) ∧
      (d = 1 → o = 3 → exec (.directiveReceive h nsid d o sid k) s =
        .next (ok (min k 4096) { n with streamsAlloc := min k 4096 })) ∧
      ((d, o) ∉ [(0, 1), (1, 1), (1, 2), (1, 3)] → exec (.directiveReceive h nsid d o sid k) s =
        .next (no sField))) ∧
    (nsForIo s h nsid = none → exec (.directiveSend h nsid d o sid v) s =
        .next (no sNamespace) ∧ exec (.directiveReceive h nsid d o sid k) s =
        .next (no sNamespace)))

/-- R84, R99, R523 to R525, R544, R546, R548: an aligned image part is kept and a misaligned one refused; Firmware
Commit checks running activations, slots, packages and versions in turn, stores a package, marks a slot for the next
reset or starts a rolling activation; an activation checkpoints and records its steps, waits while a region may not be
eclipsed, ends with its status when a region is retired, and at its end makes the slot active and raises the
anti-rollback counter if the package says so. Where the spec leaves a choice it follows assumptions 33 and 65. -/
def Obligations.FirmwareCommitsAndActivation : Prop :=
  ∀ (h : Sub) (s : State),
    let u := s.startup
    let no := fun st : Status => completeAt h st 0 0 [] 0 0 s
    let ok := fun u' : Startup => { s with startup := u', decided := s.decided ++ [answer h sOk 0 0 []] }
    let written := fun (t : State) (u' : Startup) (ds : List Completion) =>
      t = { s with startup := { u' with dir0 := t.startup.dir0, dir1 := t.startup.dir1 }, decided := ds } ∧
        t.startup.dir0 = directoryNow t.startup t.startup.dir0.seq ∧ t.startup.dir1 = directoryNow t.startup t.startup.dir1.seq ∧
        max u.dir0.seq u.dir1.seq < min t.startup.dir0.seq t.startup.dir1.seq
    (∀ off data, off % 4096 = 0 → data.length % 4096 = 0 → data ≠ [] → off + data.length ≤ 16777216 →
      exec (.firmwareImageDownload h off data) s = .next (ok { u with
        download := u.download.writeBytes off data, downloadLen := max u.downloadLen (off + data.length) })) ∧
    (∀ off data, off % 4096 ≠ 0 ∨ data.length % 4096 ≠ 0 ∨ data = [] →
      exec (.firmwareImageDownload h off data) s = .next (no sField)) ∧
    (∀ slot a, u.activation = some a → exec (.firmwareCommit h 2 slot) s = .next (no (sCmd 0x13)) ∧
      exec (.firmwareCommitActivate h slot) s = .next (no (sCmd 0x13))) ∧
    (∀ slot action, 3 < action → exec (.firmwareCommit h action slot) s = .next (no sField)) ∧
    (u.activation = none →
      (∀ slot, slot ≠ 2 → slot ≠ 3 → exec (.firmwareCommit h 0 slot) s = .next (no (sCmd 0x06)) ∧
        exec (.firmwareCommit h 2 slot) s = .next (no (sCmd 0x06)) ∧
        exec (.firmwareCommitActivate h slot) s = .next (no (sCmd 0x06))) ∧
      (∀ slot, slot = 2 ∨ slot = 3 →
        let k := fwSlot s slot
        let b := u.download.readBytes 0 u.downloadLen
        (packageOk b = false → exec (.firmwareCommit h 0 slot) s = .next (no (sCmd 0x07))) ∧
        (packageOk b = true → u.minVersion ≤ (slotOf b).secver → ∃ t t', exec (.firmwareCommit h 0 slot) s = .next t ∧
          exec (.firmwareCommit h 1 slot) s = .next t' ∧
          written t { u with slots := Tab.set u.slots slot (slotOf b), download := [], downloadLen := 0 }
            (s.decided ++ [answer h sOk 0 0 []]) ∧
          written t' { u with slots := Tab.set u.slots slot (slotOf b), download := [], downloadLen := 0
                              pending := some slot, pendingReset := some h.port } (s.decided ++ [answer h sOk 0 0 []])) ∧
        (k.valid = false → exec (.firmwareCommit h 2 slot) s = .next (no (sCmd 0x07))) ∧
        (k.valid = true → u.minVersion ≤ k.secver → ∃ t, exec (.firmwareCommit h 2 slot) s = .next t ∧
          written t { u with slots := Tab.set u.slots slot k, pending := some slot, pendingReset := some h.port }
            (s.decided ++ [answer h sOk 0 0 []])) ∧
        (k.valid = true → k.secver < u.minVersion → s.presence.state ≠ .opened →
          exec (.firmwareCommit h 2 slot) s = .next (no (sVendor 0x85))) ∧
        (u.downloadLen = 0 → k.valid = true → u.minVersion ≤ k.secver →
          (∀ r ∈ s.regions, r.2.state ≠ .retired) → slot ≠ u.active → k.compatMin ≤ (fwSlot s u.active).build →
          ∃ t, exec (.firmwareCommitActivate h slot) s = .next t ∧ t.decided = s.decided ∧
            t.startup.activation = some { h := some h, slot := slot, step := 0, region := 0, startedAt := s.datum } ∧
            t = { s with startup := { u with
              slots := Tab.set u.slots slot k, activationRegions := [], activation := t.startup.activation
              dir0 := t.startup.dir0, dir1 := t.startup.dir1 } }))) ∧
    (∀ a, u.activation = some a →
      (∀ r g, (r, g) ∈ s.regions → g.state = .retired → 0 < a.step → a.h = some h → exec .activationStep s =
        .next (completeAt h (sCmd 0x0B) 0 0 [] 0 0 { s with startup := { u with activation := none, activationRegions := [] } })) ∧
      ((∀ r ∈ s.regions, r.2.state ≠ .retired) →
        (a.step = 0 → litRegions s = List.range 8 → anyStopped s = false → ∃ t, exec .activationStep s = .next t ∧
          t.startup.activation = some { a with step := 1, region := 0, startedAt := s.datum } ∧
          t.startup.pending = some a.slot ∧ t.media.checkpointDt = s.datum ∧
          ∃ e ∈ t.faults.ring, e.cls = 0x35 ∧ e.outcome = 2 ∧ e.aux0 = 1) ∧
        (a.step = 0 → litRegions s ≠ List.range 8 → exec .activationStep s = .next s) ∧
        (a.step = 1 → ∃ t, exec .activationStep s = .next t ∧
          t.startup.activation = some { a with step := 2, region := 0 } ∧
          ∃ e ∈ t.faults.ring, e.cls = 0x35 ∧ e.outcome = 2 ∧ e.aux0 = 2) ∧
        (∀ r, a.step = 2 ∨ a.step = 3 → nextRegion s = some r → mayEclipse s r = false →
          exec .activationStep s = .next s) ∧
        (a.step = 3 → nextRegion s = none → ∃ t, exec .activationStep s = .next t ∧ t.startup.supActive = a.slot ∧
          t.startup.activation = some { a with step := 4, region := 0 }) ∧
        (a.step = 4 → a.h = some h → ∃ t, exec .activationStep s = .next t ∧ Decides s t (answer h sOk 0 0 []) ∧
          t.startup.active = a.slot ∧ t.startup.pending = none ∧ t.startup.activation = none ∧
          t.startup.minVersion =
            (if (fwSlot s a.slot).raise = true then max u.minVersion (fwSlot s a.slot).secver else u.minVersion))))

/-- R10, R74, R76, R87, R90, R92, R105, R161: get Log Page returns the asked part of the page and, unless RAE is set,
frees the events of that page; a misaligned offset or length and an invalid page are refused; Identify returns the
namespace data and lists; a management request changes only the management endpoint's state, is answered from the time
the straps are read, and changes nothing without VAON. Where the spec leaves a choice it follows assumptions 34 and 39.
-/
def Obligations.LogsIdentifyAndManagement : Prop :=
  ∀ (h : Sub) (s : State),
    let no := fun st : Status => completeAt h st 0 0 [] 0 0 s
    let ok := fun bs : List Byte => { s with decided := s.decided ++ [answer h sOk 0 0 bs] }
    let q := portOf s h.port
    (∀ nsid lid lsp off len b, off % 4 = 0 → len % 4 = 0 → len ≤ 16777216 → logContent s 0 h.port nsid lid lsp = .ok b →
      0xC0 ≤ lid ∨ off < b.length →
      exec (.getLogPage h nsid lid lsp true off len) s = .next (ok (fit len (b.drop off))) ∧
      exec (.getLogPage h nsid lid lsp false off len) s = .next (setPort (ok (fit len (b.drop off))) h.port
        { q with unread := q.unread.filter fun e => decide (e.log ≠ lid) })) ∧
    (∀ nsid lid lsp rae off len st, off % 4 = 0 → len % 4 = 0 → len ≤ 16777216 →
      logContent s 0 h.port nsid lid lsp = .error st →
      exec (.getLogPage h nsid lid lsp rae off len) s = .next (no st)) ∧
    (∀ nsid lid lsp rae off len, off % 4 ≠ 0 ∨ len % 4 ≠ 0 →
      exec (.getLogPage h nsid lid lsp rae off len) s = .next (no sField)) ∧
    (∀ nsid n cntid csi, 0 < nsid → nsid ≤ 1024 → nsOf s nsid = some n →
      exec (.identify h 0x11 nsid cntid csi) s = .next (ok (identifyNamespace s n)) ∧
      exec (.identify h 0x00 nsid cntid csi) s =
        .next (ok (if attached n h.port = true then identifyNamespace s n else zeros 4096))) ∧
    (∀ nsid cntid csi, nsid < 0xFFFFFFFE → exec (.identify h 0x02 nsid cntid csi) s = .next (ok (nsidList
      ((s.namespaces.filter fun x => decide (nsid < x.1) && attached x.2 h.port).map (·.1))))) ∧
    (∀ cns nsid cntid csi, 0x1C < cns → exec (.identify h cns nsid cntid csi) s = .next (no sField)) ∧
    (∀ r, ∃ t, exec (.nvmeMiRequest r) s = .next t ∧ t = { s with mi := t.mi }) ∧
    (s.vaon = true → s.startup.input.isSome = true →
      (∀ n, exec (.nvmeMiRequest (.other n)) s = .next { s with mi := { s.mi with status := 3, response := [] } }) ∧
      (∀ v, v = 1 ∨ v = 2 → exec (.nvmeMiRequest (.configSet 1 v)) s =
        .next { s with mi := { s.mi with freq := v, status := 0, response := [] } }) ∧
      (∀ v, v ≠ 64 → exec (.nvmeMiRequest (.configSet 3 v)) s =
        .next { s with mi := { s.mi with status := 4, response := [] } }) ∧
      exec (.nvmeMiRequest (.configGet 3)) s =
        .next { s with mi := { s.mi with status := 0, response := toLe 2 s.mi.mtu } } ∧
      ∀ p nsid lsp off len, exec (.nvmeMiRequest (.getLogPage p nsid 0xC2 lsp off len)) s =
        .next { s with mi := { s.mi with status := 3, response := [] } }) ∧
    (s.vaon = false → ∀ r, exec (.nvmeMiRequest r) s = .next s)

/-- R79, R83, R91, R529: a completion is decided and waits behind the earlier ones; a status other than success adds an
entry to the Error Information log of its port, at most 256, and status 0x85 is counted in the field book. Nothing else
changes. -/
def Obligations.CompletionsAreDecided : Prop :=
  ∀ (h : Sub) (st : Status) (dw0 dw1 : Nat) (data : List Byte) (nsid lba : Nat) (s : State),
    let t := completeAt h st dw0 dw1 data nsid lba s
    let p := portOf s h.port
    t = { s with decided := t.decided, ports := t.ports, book := t.book } ∧
    t.decided = s.decided ++ [answer h st dw0 dw1 data] ∧
    (st = sOk → t.ports = s.ports ∧ t.book = s.book) ∧
    (st ≠ sOk → portOf t h.port = { p with
      errorCount := p.errorCount + 1
      errorLog := ({ count := p.errorCount + 1, sq := h.sq, cid := h.cid, sct := st.sct, sc := st.sc, lba := lba, nsid := nsid }
        :: p.errorLog).take 256 } ∧ ∀ q, q ≠ h.port → portOf t q = portOf s q) ∧
    (st.sct = 7 → st.sc = 0x85 → t.book.counters =
      Tab.set s.book.counters 2 (min (2 ^ 32 - 1) (Tab.getD s.book.counters 2 0 + 1)))

/-- R98, R106, R107, R109, R114, R174: an accepted write, write of zeros or deallocation is dispatched in granules that
cover its range and waits for its commit points; a Dataset Management without AD and a Flush complete at once; outside
the namespace, over a sealed range and beyond the transfer limit a command completes with the status the spec gives. -/
def Obligations.WritesAreDispatched : Prop :=
  ∀ (s : State) (h : Sub) (nsid slba nlb : Nat) (n : Namespace) (data : List Byte) (deac : Bool) (ranges : List (Nat × Nat)),
    nsForIo s h nsid = some n → s.dump.active = false → s.media.readOnly = false → (∀ e ∈ n.seals, 0 < e.nlb) →
    let size := if n.lbaf = 0 then 512 else 4096
    let inside := slba + nlb + 1 ≤ n.nsze
    let free := n.seals.all fun e => decide (slba + nlb + 1 ≤ e.slba ∨ e.slba + e.nlb ≤ slba)
    let enters := fun (i : Instr) (k : WriteKind) (bytes : Nat) => ∃ t op, exec i s = .next t ∧
      t = { s with writes := s.writes ++ [op], held := t.held } ∧ (t.held.map fun c => c.h) = (s.held.map fun c => c.h) ∧
      op.h = h ∧ op.nsid = nsid ∧ op.kind = k ∧ op.committed = 0 ∧ op.checked = true ∧ op.held = false ∧
      op.reserved = false ∧ op.bytes = bytes ∧ op.dispatched = s.datum ∧
      (op.granules.map fun g => g.nlb).sum = nlb + 1 ∧ (op.granules.head?.map fun g => g.slba) = some slba
    let fails := fun (i : Instr) (st : Status) => ∃ t, exec i s = .next t ∧ Decides s t (answer h st 0 0 [])
    (inside → free = true → (nlb + 1) * size ≤ 16777216 →
      enters (.write h nsid slba nlb 0 0 data) .write ((nlb + 1) * size)) ∧
    (inside → free = true → enters (.writeZeroes h nsid slba nlb deac) .writeZeroes 0) ∧
    (inside → free = true → ranges = [(slba, nlb + 1)] →
      enters (.datasetManagement h nsid true ranges) .deallocate 0) ∧
    fails (.datasetManagement h nsid false ranges) sOk ∧
    (¬inside → (nlb + 1) * size ≤ 16777216 →
      fails (.write h nsid slba nlb 0 0 data) sLba ∧ fails (.writeZeroes h nsid slba nlb deac) sLba) ∧
    (inside → free = false → (nlb + 1) * size ≤ 16777216 →
      fails (.write h nsid slba nlb 0 0 data) (sVendor 0x80) ∧ fails (.writeZeroes h nsid slba nlb deac) (sVendor 0x80)) ∧
    (16777216 < (nlb + 1) * size → fails (.write h nsid slba nlb 0 0 data) sField) ∧
    exec (.flush h nsid) s = .next (completeAt h sOk 0 0 [] 0 0 s)

/-- R107, R114, R116, R181, R189, R214: the granule of a one-granule write that has room commits: the command
completes, its blocks read as the data written, every other block reads as before, its units are buffered, and one
journal record is entered. A host transfer that fails completes the command with Data Transfer Error, and no block and
no buffer line changes; the operation itself stays until its completion is posted. -/
def Obligations.GranulesCommit : Prop :=
  ∀ (s : State) (h : Sub) (n : Namespace) (w : WriteOp) (g : Granule),
    s.writes = [w] → w.h = h → nsOf s w.nsid = some n → w.kind = .write → w.granules = [g] → w.committed = 0 →
    w.checked = true → w.held = false → w.reserved = false → w.conforming = false → w.task = none → w.wt = false →
    g.data.length = g.nlb * blockBytes n → 0 < g.nlb → s.dump.active = false → s.media.readOnly = false →
    sealed n g.slba g.nlb = false → n.evid = false → (litRegions s).isEmpty = false → s.holdUp.writeThrough = false →
    (∃ t, exec (.writeCommit h true) s = .next t ∧ Decides s t (answer h sTransfer 0 0 []) ∧
      t.writes = [{ w with granules := [] }] ∧ (nsOf t w.nsid).map (fun m => m.blocks) = some n.blocks ∧ t.lines = s.lines) ∧
    (roomFor s false g.data.length = true → ∃ t m, exec (.writeCommit h false) s = .next t ∧
      Decides s t (answer h sOk 0 0 []) ∧ nsOf t w.nsid = some m ∧
      (∀ i, i < g.nlb → blockData m (g.slba + i) = (g.data.drop (i * blockBytes n)).take (blockBytes n)) ∧
      (∀ b, (b < g.slba ∨ g.slba + g.nlb ≤ b) → blockData m b = blockData n b) ∧
      (∀ u ∈ unitsTouched n g.slba g.nlb, (entryOf m u).kind = .buffered) ∧
      t.smart.writeCmds = s.smart.writeCmds + 1 ∧ t.media.seq = s.media.seq + 1)

/-- R81, R85, R110, R180, R184, R186, R198, R214: a read is dispatched to the regions that own its mapping units and
looks every unit up; it returns the plaintext of its range and is counted; a verify returns no data; when a block
cannot be read, both complete with Unrecovered Read Error at the first such block. -/
def Obligations.ReadsReturnContent : Prop :=
  ∀ (s : State) (h : Sub) (nsid slba nlb : Nat) (n : Namespace), nsForIo s h nsid = some n →
    slba + nlb + 1 ≤ n.nsze → rangeWaits s n slba (nlb + 1) = false → (nlb + 1) * blockBytes n ≤ 16777216 →
    let parts := dispatchParts s nsid n slba (nlb + 1)
    let served := { s with
      held := s.held.map fun c => if c.h = h then { c with parts := parts } else c
      media := (lookupPages nsid n slba (nlb + 1) s).media }
    let rd := { served with smart := { s.smart with
      unitsRead := s.smart.unitsRead + (nlb + 1) * blockSectors n, readCmds := s.smart.readCmds + 1 } }
    served.media = { s.media with pages := served.media.pages } ∧
    ((∀ i, i ≤ nlb → blockBad s nsid n (slba + i) = false) →
      exec (.read h nsid slba nlb) s = .next { rd with decided := s.decided ++
        [answer h sOk 0 0 ((List.range (nlb + 1)).flatMap fun i => blockData n (slba + i))] } ∧
      exec (.verify h nsid slba nlb) s = .next { served with decided := s.decided ++ [answer h sOk 0 0 []] }) ∧
    (∀ i, i ≤ nlb → blockBad s nsid n (slba + i) = true → (∀ j, j < i → blockBad s nsid n (slba + j) = false) →
      exec (.read h nsid slba nlb) s = .next (completeAt h (sMedia 0x81) 0 0 [] nsid (slba + i) rd) ∧
      exec (.verify h nsid slba nlb) s = .next (completeAt h (sMedia 0x81) 0 0 [] nsid (slba + i) served))

/-- R98: Flush for an attached namespace, or for FFFFFFFFh, completes with success in the step that dispatches it,
whatever writes are in flight; for another namespace it is refused. -/
def Obligations.FlushCompletesAtOnce : Prop :=
  ∀ (h : Sub) (nsid : Nat) (s : State),
    ((nsForIo s h nsid).isSome = true ∨ nsid = 0xFFFFFFFF → exec (.flush h nsid) s =
      .next { s with decided := s.decided ++ [answer h sOk 0 0 []] }) ∧
    ((nsForIo s h nsid).isSome = false → nsid ≠ 0xFFFFFFFF →
      exec (.flush h nsid) s = .next (completeAt h sNamespace 0 0 [] 0 0 s))

/-- R133 to R138: a stream reservation that passes its tests is admitted with a full bucket, and a release ends it;
each is journalled and raises the reservation generation. Fields out of range, the first test that fails, and the
release of no reservation complete with their status. Where the spec leaves a choice it follows assumption 61. -/
def Obligations.StreamReservations : Prop :=
  ∀ (s : State) (h : Sub) (nsid : Nat) (d : Cdw) (data : List Byte),
    let sl := actSlice s h
    let b := fit 64 data
    let q := reserveReq sl nsid d b
    (reserveFields s d b q = true → ownsNs s sl nsid = true → s.base.running = false → reserveRefusal s q = none →
      ∃ t, exec (.streamReserve h nsid d data) s = .next t ∧ Decides s t (answer h sOk q.sid 0 []) ∧
        t.resvGen = s.resvGen + 1 ∧ t.media.seq = s.media.seq + 1 ∧ ∃ r ∈ t.resvs, r.slice = sl ∧ r.nsid = nsid ∧
        r.sid = q.sid ∧ r.bw = q.bw ∧ r.maxw = q.maxw ∧ r.burst = q.burst ∧ r.lbound = q.lbound ∧ r.bucket = 100000 * q.burst ∧
        r.admitted = s.datum) ∧
    (reserveFields s d b q = false → exec (.streamReserve h nsid d data) s = .next (completeAt h sField 0 0 [] 0 0 s)) ∧
    (reserveFields s d b q = true → ownsNs s sl nsid = true → s.base.running = false → ∀ st dw,
      reserveRefusal s q = some (st, dw) →
      exec (.streamReserve h nsid d data) s = .next (completeAt h st dw 0 [] 0 0 s)) ∧
    (∀ sid r, 1 ≤ sid → sid < 65536 → d = { d10 := BitVec.ofNat 32 sid } → ownsNs s sl nsid = true →
      resvOf s nsid sid = some r → ∃ t, exec (.streamRelease h nsid d) s = .next t ∧ Decides s t (answer h sOk 0 0 []) ∧
        (∀ x ∈ t.resvs, ¬(x.nsid = nsid ∧ x.sid = sid)) ∧ t.resvGen = s.resvGen + 1 ∧ t.media.seq = s.media.seq + 1) ∧
    (∀ sid, 1 ≤ sid → sid < 65536 → d = { d10 := BitVec.ofNat 32 sid } → ownsNs s sl nsid = true →
      resvOf s nsid sid = none → exec (.streamRelease h nsid d) s = .next (completeAt h sField 0 0 [] 0 0 s))

/-- R117, R118, R119, R121, R126 to R132: the measurement of the hold-up bank step by step, with its timeout, recharge
and samples, and Hold-up Test, which joins a discharge under way. A warning that has lasted 200 ticks begins the dump;
the reserve window closes 2,000,000 ticks later; the dump's end begins brown-out service; recovery ends it; power-down
keeps blocks, seals, operating seconds and fuses and leaves no task, command or port; the supervisor restarts the
device when the supply has recovered. Where the spec leaves a choice it follows assumptions 15, 77 and 78. -/
def Obligations.HoldUpAndDips : Prop :=
  (∀ (s : State) (x t0 : Nat) (h : Sub),
    let u := s.holdUp
    let ends := 100 * x ≤ 97 * u.v0 ∨ t0 + 2000000 ≤ s.datum
    let full := ∀ i, s.startup.strap = some i → 99 * (i.huVfull : Rat) ≤ bankVolts x * 10000
    (u.step = .waiting t0 → u.settled = true → u.forbidden = false → u.latched = false → s.dump.qualifying = none →
      s.dump.active = false → s.startup.huValid = true → ∃ t, exec (.holdupMeasurementStart x) s = .next t ∧
        t.holdUp.step = .discharging s.datum ∧ t.holdUp.v0 = x ∧ t.holdUp.charging = false ∧ t.holdUp.testLoad = true ∧
        t.holdUp.lowered = true ∧
        t = { s with holdUp := t.holdUp, faults := t.faults, book := t.book, ports := t.ports, resvs := t.resvs }) ∧
    (u.step = .waiting t0 → u.settled = false → exec (.holdupMeasurementStart x) s = .next s) ∧
    (u.step = .discharging t0 → exec (.holdupV1Sample x) s = .next (if t0 + 10000 ≤ s.datum then
      { s with holdUp := { u with step := .discharging2 t0, v1 := x } } else s)) ∧
    (u.step = .discharging2 t0 → ¬ends → exec (.holdupV2Sample x) s = .next s) ∧
    (u.step = .discharging2 t0 → ends → u.v1 < u.v0 → x < u.v1 → ∃ t, exec (.holdupV2Sample x) s = .next t ∧
      t.holdUp.step = .recharging ∧ t.holdUp.testLoad = false ∧ t.holdUp.testers = [] ∧ t.holdUp.scheduled = false ∧
      t.holdUp.meas = some { v0 := u.v0, v1 := u.v1, v2 := x, dt := s.datum - (t0 + 10000) } ∧
      t.holdUp.measB = some (measuredB s { v0 := u.v0, v1 := u.v1, v2 := x, dt := s.datum - (t0 + 10000) })) ∧
    (u.step = .discharging2 t0 → ends → u.v1 ≤ x → u.testers = [] →
      let charges := !u.forbidden && !u.latched && !s.dump.active && s.dump.qualifying.isNone && !s.dump.holdSel
        && !s.dump.poweredDown && !s.faults.supStopped
      let u' := { u with step := .recharging, testLoad := false, charging := charges, scheduled := false }
      exec (.holdupV2Sample x) s = .next { s with holdUp := u' }) ∧
    (u.step = .waiting t0 → u.testers = [] → exec .holdupSettleTimeout s = .next (if t0 + 6000000000 ≤ s.datum then
      { s with holdUp := { u with step := .idle, testLoad := false, retry := u.scheduled, scheduled := false } } else s)) ∧
    (u.step = .recharging → full → ∃ t, exec (.bankRecharged x) s = .next t ∧ t.holdUp.step = .idle ∧
      t.holdUp.lowered = false ∧ t.holdUp.vbank = x ∧ t.holdUp.settled = true) ∧
    (u.step = .recharging → ¬full → exec (.bankRecharged x) s = .next s) ∧
    (∃ t, exec (.vbankSample x) s = .next t ∧ t.holdUp.vbank = x ∧
      (full → u.charging = true → t.holdUp.settled = true) ∧
      (u.retry = false → t.holdUp.step = u.step) ∧
      t = { s with holdUp := t.holdUp, faults := t.faults, book := t.book, ports := t.ports, resvs := t.resvs }) ∧
    (discharging u.step = true → s.startup.huValid = true →
      exec (.holdUpTest h 0) s = .next { s with holdUp := { u with testers := u.testers ++ [h] } }) ∧
    (s.startup.huValid = false →
      exec (.holdUpTest h 0) s =
        .next (completeAt h sOk (capUnits s * 65536 + esrUnits s) (testDword s 1 false (limitB s)) [] 0 0 s))) ∧
  (∀ (s : State) (d : Nat),
    let u := s.dump
    (u.active = false → u.brownOut = false → u.poweredDown = false → u.qualifying = none → s.vaon = true →
      ∃ t, exec .vinWarnFall s = .next t ∧ t.dump = { u with qualifying := some s.datum } ∧ t.holdUp.charging = false ∧
        t.holdUp.testLoad = false ∧ t.holdUp.testers = [] ∧ discharging t.holdUp.step = false) ∧
    (u.qualifying = some d → exec .vinWarnRise s = .next (startCharger { s with dump := { u with qualifying := none } })) ∧
    (u.qualifying = some d → d + 200 ≤ s.datum → ∃ t, exec .powerFailWarning s = .next t ∧ t.dump.active = true ∧
      t.dump.tick0 = s.datum ∧ t.dump.windowOpen = true ∧ t.dump.holdSel = true ∧ t.dump.qualifying = none ∧
      t.dump.dumps = min (2 ^ 32 - 1) (u.dumps + 1) ∧ t.holdUp.charging = false ∧
      (∀ w ∈ t.writes, w.held = true ∨ (w.reserved = true ∧ w.conforming = true))) ∧
    (u.qualifying = some d → s.datum < d + 200 → exec .powerFailWarning s = .next s) ∧
    (u.active = true → u.windowOpen = true → u.tick0 + 2000000 ≤ s.datum →
      exec .reserveWindowClose s = .next { s with
        dump := { u with windowOpen := false }
        writes := s.writes.map fun w => if w.held = true ∧ w.reserved = true then
          { w with heldAfterWindow := w.heldAfterWindow.or (some s.datum) } else w }) ∧
    (u.active = true → u.windowOpen = true → s.datum < u.tick0 + 2000000 → exec .reserveWindowClose s = .next s) ∧
    (u.active = true → s.thermal.t3 = false → s.writes = [] → s.lines = [] → ∃ t, exec .dumpComplete s = .next t ∧
      t.dump.active = false ∧ t.dump.brownOut = true ∧ t.dump.done = true ∧ t.dump.holdSel = false ∧ t.media.journal = [] ∧
      t.holdUp.writeThrough = true) ∧
    (u.recovery = some d → d + 2000000 ≤ s.datum → u.brownOut = true → u.active = false → s.thermal.t3 = false →
      s.writes = [] → s.supply.held = [] → ∃ t, exec .vinRecovery s = .next t ∧ t.dump.brownOut = false ∧
        t.dump.active = false ∧ t.dump.recovered = min (2 ^ 32 - 1) (u.recovered + 1)) ∧
    (s.vaon = true → u.poweredDown = false → u.active = false → s.lines = [] → ∃ t, exec .vinResetReached s = .next t ∧
      t.dump.poweredDown = true ∧ t.tasks = [] ∧ t.held = [] ∧ t.decided = [] ∧ t.ports = [] ∧ t.startup.done = false ∧
      t.opsec = s.opsec ∧ t.startup.minVersion = s.startup.minVersion ∧
      t.namespaces.map (fun e => (e.1, e.2.blocks, e.2.seals)) = s.namespaces.map (fun e => (e.1, e.2.blocks, e.2.seals))) ∧
    (u.recovery = some d → s.vaon = true → u.poweredDown = true → s.thermal.t3 = false → d + 2000000 ≤ s.datum →
      ∀ perst, exec (.supervisorRestart perst) s = .next { s with
        pcc := min (2 ^ 32 - 1) (s.pcc + 1)
        dump := { u with poweredDown := false }
        startup := { s.startup with tick0 := if perst then none else some s.datum } }) ∧
    exec (.recoveryComparatorChange false) s = .next { s with dump := { u with recovery := none } } ∧
    (u.recovery = none →
      exec (.recoveryComparatorChange true) s = .next { s with dump := { u with recovery := some s.datum } }))

/-- R151 to R156, R158 to R160, R446: the keeper forms the link of the next granule of a custody namespace over the
present head, the range, the stream, the datum and the digest of the data. 60 s after the newest monument one of kind 1
is triggered with the chain's head, or stays due while no link has been added; writing a monument signs its record with
the identity key and takes it from the pending ones, and a fault of the public-key engine is a detected fault, upon
which the spare path signs; without that key nothing is written. Where the spec leaves a choice it follows assumption
73. -/
def Obligations.LinksAndMonuments : Prop :=
  (∀ (s : State) (nsid : Nat) (n : Namespace) (w : WriteOp) (g : Granule), nsOf s nsid = some n → n.evid = true →
    (litRegions s).isEmpty = false → n.chain.forming = none → s.writes = [w] → w.nsid = nsid → w.granules = [g] →
    w.committed = 0 → w.checked = true → w.held = false → w.kind = .write → s.dump.active = false →
    s.holdUp.writeThrough = true →
    ∃ t l, exec (.chainLinkForm nsid false) s = .next t ∧ t = { s with namespaces := t.namespaces } ∧
      nsOf t nsid = some { n with chain := { n.chain with forming := some (w.h, 0, l) } } ∧
      l.lseq = n.chain.links.length ∧ l.slba = g.slba ∧ l.nlb = g.nlb ∧ l.sid = w.sid ∧ l.op = 1 ∧ l.datum = s.datum ∧
      l.ddig = sha256 (fit (g.nlb * blockBytes n) g.data) ∧ l.link = sha256 (linkPreimage (headOf n.chain) nsid l) ∧
      (linkPreimage (headOf n.chain) nsid l).take (headOf n.chain).length = headOf n.chain) ∧
  (∀ (s : State) (nsid : Nat) (n : Namespace), nsOf s nsid = some n →
    let c := n.chain
    (n.evid = true → c.links ≠ [] → c.lastMon + 6000000000 ≤ s.datum → c.kind1Due = false → c.linksAtMon = c.links.length →
      exec (.monumentTimerExpiry nsid) s = .next (setNs nsid { n with chain := { c with kind1Due := true } } s)) ∧
    (n.evid = true → c.links ≠ [] → c.lastMon + 6000000000 ≤ s.datum → c.kind1Due = false → c.linksAtMon < c.links.length →
      ∃ t m trig, exec (.monumentTimerExpiry nsid) s = .next t ∧ nsOf t nsid = some m ∧
        m.chain = { c with pending := c.pending ++ [trig], nextMseq := c.nextMseq + 1, lastMon := s.datum,
                           linksAtMon := c.links.length, kind1Due := false } ∧
        trig.kind = 1 ∧ trig.mseq = c.nextMseq ∧ trig.lseq = c.links.length - 1 ∧ trig.head = headOf c ∧
        t.media.seq = s.media.seq + 1) ∧
    (∀ trig rest key, c.pending = trig :: rest → trig.waiter = none → identityKey s = some key → s.turns = [] →
      ∃ t m rec', exec (.monumentWrite nsid false) s = .next t ∧ t = { s with namespaces := t.namespaces } ∧
        nsOf t nsid = some m ∧ m.chain = { c with pending := rest, monuments := c.monuments ++ [rec'] } ∧
        rec' = monumentBody s nsid n trig ++ fit 64 (Config.ecdsaSign key (sha256 (monumentBody s nsid n trig)))) ∧
    (c.pending ≠ [] → s.turns = [] → exec (.monumentWrite nsid true) s = .next (recordDetected
      { level := 3, cls := 0x08, site := { kind := 11, index := 3 }, aux0 := freeNat s, aux1 := 1 }
      { s with drawn := s.drawn + 1 })) ∧
    (identityKey s = none → s.turns = [] → exec (.monumentWrite nsid false) s = .next s))

/-- R165 to R167, R169 to R172, R176: a Range Digest of one grain completes with the SHA-256 of its blocks after a
128-byte header; a range outside the namespace and a buffer too small are refused. A seal waits for its turn and then
for its seal point, which enters it in the seal table with the chain's head and fails the overlapping writes that are
not committed; its manifest completes the entry and triggers a monument of kind 3 that the command waits for. Unsealing
needs an open presence window, takes the range out of the table and triggers a monument of kind 4. Where the spec
leaves a choice it follows assumptions 61 and 74. -/
def Obligations.RangeDigestsAndSeals : Prop :=
  (∀ (s : State) (h : Sub) (nsid : Nat) (d : Cdw) (n : Namespace), nsForIo s h nsid = some n →
    let slba := d.d11.toNat * 2 ^ 32 + d.d10.toNat
    let nlb := d.d12.toNat
    d.d13 = 0 → d.d14.toNat % 4 = 0 →
    (160 ≤ d.d14.toNat → slba + nlb + 1 ≤ n.nsze → rangeWaits s n slba (nlb + 1) = false →
      (∀ i, i ≤ nlb → blockBad s nsid n (slba + i) = false) →
      ∃ t, exec (.rangeDigest h nsid d) s = .next t ∧
        t = { s with decided := t.decided, smart := { s.smart with
          unitsRead := s.smart.unitsRead + (nlb + 1) * blockSectors n } } ∧
        Decides s t (answer h sOk 0 0 (rangeDigestBody s nsid n slba nlb 0 false)) ∧
        (rangeDigestBody s nsid n slba nlb 0 false).drop 128 = sha256 (blocksData n slba (nlb + 1))) ∧
    (160 ≤ d.d14.toNat → n.nsze < slba + nlb + 1 → exec (.rangeDigest h nsid d) s = .next (completeAt h sLba 0 0 [] 0 0 s)) ∧
    (d.d14.toNat < 160 → exec (.rangeDigest h nsid d) s = .next (completeAt h sField 0 0 [] 0 0 s))) ∧
  (∀ (s : State) (h : Sub) (nsid : Nat) (d : Cdw) (data : List Byte) (rechecks : List (Nat × Bool)) (n : Namespace),
    nsOf s nsid = some n →
    let b := fit 64 data
    let slba := ofLe (b.take 8)
    let nlb := ofLe ((b.drop 8).take 8)
    let sealing : NsTurn := { h := h, slice := actSlice s h, cmd := .sealing nsid data }
    let unsealing : NsTurn := { h := h, slice := 0, cmd := .unsealing nsid data rechecks }
    n.evid = true → goesAway s n = false → 1 ≤ nlb → nlb ≤ 2 ^ 32 → slba + nlb ≤ n.nsze →
    (turnWaits s sealing = true → exec (.extentSeal h nsid d data) s = .next { s with turns := s.turns ++ [sealing] }) ∧
    (turnWaits s sealing = false → actSlice s h = 0 → (b.drop 32).all (· == 0) = true → sealLoad s < 65536 →
      exec (.extentSeal h nsid d data) s = .next (setNs nsid { n with sealing := n.sealing ++
        [{ h := some h, slba := slba, nlb := nlb, label := (b.drop 16).take 16 }] } s)) ∧
    (∀ p, n.sealing = [p] → p.fixed = false → s.writes = [] → ∃ t m e, exec (.sealPointFix nsid) s = .next t ∧
      nsOf t nsid = some m ∧
      m.sealing = [{ p with fixed := true }] ∧ e ∈ m.seals ∧ m.seals.length = n.seals.length + 1 ∧ e.slba = p.slba ∧
      e.nlb = p.nlb ∧ e.label = p.label ∧ e.datum = s.datum ∧ e.complete = false ∧ e.head = headOf n.chain ∧
      t.media.seq = s.media.seq + 1 ∧ t.decided = s.decided) ∧
    (∀ p w g, n.sealing = [p] → p.fixed = false → s.writes = [w] → w.nsid = nsid → w.granules = [g] → w.committed = 0 →
      w.checked = true → w.task = none → g.slba < p.slba + p.nlb → p.slba < g.slba + g.nlb →
      ∃ t, exec (.sealPointFix nsid) s = .next t ∧ Decides s t (answer w.h (sVendor 0x80) 0 0 []) ∧
        t.writes = [{ w with granules := [] }]) ∧
    (∀ e, n.seals = [e] → e.complete = false → s.turns = [] →
      n.sealing = [{ h := some h, slba := e.slba, nlb := e.nlb, label := e.label, fixed := true }] →
      (∀ u ∈ unitsTouched n e.slba e.nlb, unitBad s nsid n u e.slba e.nlb = false) →
      ∃ t m e' trig, exec (.sealManifestComplete nsid) s = .next t ∧ nsOf t nsid = some m ∧ m.seals = [e'] ∧
        m.sealing = [] ∧ e'.complete = true ∧ e'.slba = e.slba ∧ e'.nlb = e.nlb ∧
        e'.manifest = (unitsTouched n e.slba e.nlb).map (fun u => (u, unitDigest s nsid n u e.slba e.nlb)) ∧
        m.chain.pending = n.chain.pending ++ [trig] ∧ trig.kind = 3 ∧ trig.xroot = e'.root ∧
        trig.waiter = some (h, 1) ∧ t.decided = s.decided) ∧
    (turnWaits s unsealing = true →
      exec (.extentUnseal h nsid d data rechecks) s = .next { s with turns := s.turns ++ [unsealing] }) ∧
    (turnWaits s unsealing = false → (b.drop 16).all (· == 0) = true → windowOpen s = false →
      exec (.extentUnseal h nsid d data rechecks) s = .next (completeAt h (sVendor 0x85) 0 0 [] 0 0 s)) ∧
    (∀ e, turnWaits s unsealing = false → (b.drop 16).all (· == 0) = true → windowOpen s = true → n.seals = [e] →
      e.slba = slba → e.nlb = nlb → n.map = [] →
      ∃ t m trig, exec (.extentUnseal h nsid d data rechecks) s = .next t ∧ nsOf t nsid = some m ∧ m.seals = [] ∧
        m.chain.pending = n.chain.pending ++ [trig] ∧ trig.kind = 4 ∧ trig.xslba = slba ∧ trig.xnlb = nlb ∧
        trig.waiter = some (h, 0) ∧ t.decided = s.decided ∧ t.presence.left = s.presence.left - 1))

/-- R112, R181, R184, R195: destage programs the next stripe of an open superblock with buffered units, whose lines
stay until the program is complete; then each unit lies at its page, the lines are released, and no block's content has
changed. Where the spec leaves a choice it follows assumptions 19 and 20. -/
def Obligations.DestagePlacesUnits : Prop :=
  ∀ (s : State) (sb nsid u : Nat) (b : Superblock) (n : Namespace), Tab.get? s.media.sbs sb = some b →
    nsOf s nsid = some n →
    (takesStripe s b = true → programRoom s b = true → groupOpen s false b.group = true → some sb ≠ s.media.wlTarget →
      s.dump.active = false → b.dump = false → pairFirst s false b [(nsid, u)] = true →
      n.par2 = b.par2 → (entryOf n u).kind = .buffered → (entryOf n u).prevKind = .deallocated →
      b.nextStripe + 1 < pagesOf s b.slc → (∃ l ∈ s.lines, l.nsid = nsid ∧ l.quarter / 4 = u ∧ l.programmed = none) →
      ∃ t b' x, exec (.destageStripeProgram sb [(nsid, u)] [] []) s = .next t ∧
        t = { s with lines := t.lines, media := t.media, namespaces := t.namespaces } ∧ nsOf t nsid = some n ∧
        Tab.get? t.media.sbs sb = some b' ∧ b'.nextStripe = b.nextStripe + 1 ∧ b'.state = .opened ∧
        b'.placed = b.placed ++ [x] ∧ x.what = .unit nsid u ∧ x.stripe = b.nextStripe ∧
        x.member ∈ dataMembers s b b.nextStripe ∧ x.data = blocksData n (u * unitBlocks n) (unitBlocks n) ∧
        b'.parity = b.parity ++ [(b.nextStripe, stripeParity b.par2 [(x.member, pageImage s x)])] ∧
        b'.programming = b.programming ++ [b.nextStripe] ∧ t.lines.length = s.lines.length ∧
        t.media.nandUnits = s.media.nandUnits + 1 ∧
        ∀ l ∈ t.lines, l.nsid = nsid → l.quarter / 4 = u → l.programmed ≠ none) ∧
    (∀ stripe rest x, b.programming = stripe :: rest → b.placed.filter (fun p => decide (p.stripe = stripe)) = [x] →
      x.what = .unit nsid u → x.source = none →
      (entryOf n u).kind = .buffered → (∀ l ∈ s.lines, l.nsid = nsid → l.quarter / 4 = u →
        l.programmed = some (sb * 2 ^ 24 + stripe)) →
      ∃ t m, exec (.nandProgramComplete sb) s = .next t ∧ nsOf t nsid = some m ∧
        t.lines = s.lines.filter (fun l => decide (l.programmed ≠ some (sb * 2 ^ 24 + stripe))) ∧
        (entryOf m u).kind = .onNand ∧ (entryOf m u).sb = sb ∧ (entryOf m u).die = (memberPage s b x.member stripe).1 ∧
        (entryOf m u).ppn = (memberPage s b x.member stripe).2 ∧ (entryOf m u).slc = b.slc ∧ m.blocks = n.blocks ∧
        ∀ v, v ≠ u → entryOf m v = entryOf n v)

/-- R185 to R192, R199 to R203, R206: a map page is loaded with its pending deltas, written back and reconstructed; a
durable record leaves the journal in its turn; a checkpoint that is due cleans every map page. Reclaim takes a source,
a valid unit is copied and, once the copy is programmed, a MOVE record points to its new page without a change of
content; an empty source is erased and its block returns with its erase counted, and wear levelling takes a closed
superblock when the erase counts differ too much. Where the spec leaves a choice it follows assumptions 19 and 74. -/
def Obligations.MapJournalAndReclaim : Prop :=
  (∀ (s : State) (nsid page sb seq die lost : Nat),
    let k := nsid * 2 ^ 32 + page
    let p := Tab.getD s.media.pages k {}
    let m := s.media
    (p.cached = false → p.lost = false → (m.pages.filter fun e => e.2.cached).length < mapCachePages s →
      exec (.mapPageLoadComplete nsid page none) s = .next { s with media := { m with
        pages := Tab.set m.pages k { p with
          cached := true, dirty := !p.pending.isEmpty, pending := [], used := s.datum
          seq := (p.pending.map (·.1)).foldl max p.mediaSeq } } }) ∧
    (p.cached = false → p.lost = false → 2 < lost →
      let r := recordDetected (pageEntry s nsid page lost p) s
      exec (.mapPageLoadComplete nsid page (some lost)) s = .next { r with media := { m with
        pages := Tab.set m.pages k { p with lost := true } } }) ∧
    (∀ b n, p.cached = true → p.dirty = true → s.dump.active = false → m.sbs = [(sb, b)] → b.par2 = anyPar2 s →
      b.dump = false → some sb ≠ m.wlTarget → takesStripe s b = true → groupOpen s false b.group = true →
      b.nextStripe + 1 < pagesOf s b.slc → nsOf s nsid = some n →
      ∃ t b' x, exec (.mapPageWriteback nsid page) s = .next t ∧ t = { s with media := t.media } ∧
        t.media.pages = m.pages ∧ Tab.get? t.media.sbs sb = some b' ∧ b'.placed = b.placed ++ [x] ∧
        x.what = .mapPage nsid page ∧ x.stripe = b.nextStripe ∧ x.seq = max p.seq p.mediaSeq ∧
        x.data = mapPageImage nsid n page (max p.seq p.mediaSeq) ∧ b'.programming = b.programming ++ [b.nextStripe]) ∧
    (∀ b stripe rest x, Tab.get? m.sbs sb = some b → b.programming = stripe :: rest →
      b.placed.filter (fun p => decide (p.stripe = stripe)) = [x] → x.what = .mapPage nsid page →
      ∃ t, exec (.nandProgramComplete sb) s = .next t ∧ Tab.get? t.media.pages k = (Tab.get? m.pages k).map (fun q =>
        { q with place := some (memberPage s b x.member stripe), mediaSeq := x.seq, lost := false
                 dirty := q.dirty && decide (x.seq < q.seq) }) ∧
        ∀ j, j ≠ k → Tab.get? t.media.pages j = Tab.get? m.pages j) ∧
    (∀ b x u n, p.lost = true → (m.pages.filter fun e => e.2.cached).length < mapCachePages s → m.sbs = [(sb, b)] → b.state = .closed → b.placed = [x] → x.what = .unit nsid u → pageOf u = page →
      nsOf s nsid = some n → (entryOf n u).kind ≠ .buffered → (entryOf n u).retained = false →
      (deltasAfter s nsid page x.seq).any (fun d => decide (d.2.unit = u)) = false →
      ∃ t n' q, exec (.mapPageReconstruct nsid page) s = .next t ∧ nsOf t nsid = some n' ∧
        (entryOf n' u).kind = .onNand ∧ (entryOf n' u).sb = sb ∧ (entryOf n' u).die = (memberPage s b x.member x.stripe).1 ∧
        (entryOf n' u).ppn = (memberPage s b x.member x.stripe).2 ∧ (entryOf n' u).slc = b.slc ∧
        (entryOf n' u).seq = x.seq ∧ (∀ v, v ≠ u → entryOf n' v = entryOf n v) ∧
        Tab.get? t.media.pages k = some q ∧ q.lost = false) ∧
    (p.lost = false → exec (.mapPageReconstruct nsid page) s = .next s) ∧
    (∀ r rest, m.journal = r :: rest → r.seq = seq → ∃ t x, exec (.journalRecordDurable seq) s = .next t ∧
      t = { s with media := { m with journal := rest, log := m.log ++ [x] }, drawn := s.drawn + 2 } ∧
      x.seq = r.seq ∧ x.body = r.body) ∧
    (∀ r rest, m.journal = r :: rest → r.seq ≠ seq → exec (.journalRecordDurable seq) s = .next s) ∧
    (checkpointDue s = true → dirtyPages s = [] → ∃ t c, exec .checkpointStart s = .next t ∧
      t = { s with media := t.media, drawn := s.drawn + 2 } ∧ t.media.seq = m.seq + 1 ∧
      t.media.checkpoints = (c :: m.checkpoints).take 2 ∧ c.p = m.seq ∧ c.table = blockTable s ∧
      c.directory = mapDirectory s ∧ t.media.checkpointDt = s.datum ∧ t.media.checkpointOp = s.opsec ∧
      t.media.journalBytes = 0 ∧ t.media.pages = m.pages ∧ t.media.sbs = m.sbs) ∧
    (checkpointDue s = false → exec .checkpointStart s = .next s) ∧
    exec (.redundancyRebuildComplete die) s = .next (if dieInUse s die = true then s
      else { s with media := { m with rebuilding := m.rebuilding.filter (· ≠ die) } })) ∧
  (∀ (s : State) (sb grp nsid u die ppn : Nat) (b : Superblock) (n : Namespace) (m1 m2 : Bool),
    Tab.get? s.media.sbs sb = some b →
    (freeSbCount s grp < 8 → s.media.sbs = [(sb, b)] → reclaimable s grp sb b = true → refreshing s b = false →
      exec (.reclaimSourceSelect grp) s = .next { s with media := { s.media with
        sources := Tab.set s.media.sources sb .reclaim } }) ∧
    (∀ dst x i stripe, nsOf s nsid = some n → (entryOf n u).kind = .onNand → (entryOf n u).sb = sb → unitSealed n u = false →
      freePage s n sb die ppn = some (dst, x, i, stripe) →
      ∃ t x' p, exec (.unitRelocate nsid u die ppn true m1 m2) s = .next t ∧ t = { s with media := t.media } ∧
        Tab.get? t.media.sbs dst = some x' ∧ x'.placed = x.placed ++ [p] ∧ p.what = .unit nsid u ∧ p.stripe = stripe ∧
        p.member = i ∧ p.source = some (entryOf n u, sb) ∧ stripe ∈ x'.programming ∧
        t.media.nandUnits = s.media.nandUnits + 1) ∧
    (∀ stripe rest x e src, b.programming = stripe :: rest → b.placed.filter (fun p => decide (p.stripe = stripe)) = [x] →
      x.what = .unit nsid u → x.source = some (e, src) → nsOf s nsid = some n → (entryOf n u).kind = .onNand →
      ∃ t m, exec (.nandProgramComplete sb) s = .next t ∧ nsOf t nsid = some m ∧ m.blocks = n.blocks ∧
        t.media.seq = s.media.seq + 1 ∧ (∀ v, v ≠ u → entryOf m v = entryOf n v) ∧
        entryOf m u = (if e = entryOf n u then
          { entryOf n u with die := (memberPage s b x.member stripe).1, ppn := (memberPage s b x.member stripe).2, sb := sb,
                             slc := b.slc, prevKind := (entryOf m u).prevKind, prevSlc := (entryOf m u).prevSlc,
                             prevDie := (entryOf m u).prevDie, prevPpn := (entryOf m u).prevPpn, prevSb := (entryOf m u).prevSb }
          else entryOf n u)) ∧
    (sourceReady s sb b = true → s.dump.active = false → ∃ t, exec (.sourceErase sb) s = .next t ∧
      Tab.get? t.media.sbs sb = some { b with state := .erasing } ∧ t.media.seq = s.media.seq + 1 ∧
      t.namespaces = s.namespaces) ∧
    (∀ blk, b.state = .erasing → s.dump.active = false → b.members = [(die, blk)] → (dieOf s die).state = .inService →
      Tab.get? s.media.sources sb = some .reclaim →
      (Tab.getD s.media.blocks (blockKey die blk) {}).retainedFor = [] →
      (Tab.getD s.media.blocks (blockKey die blk) {}).retired = false →
      ∃ t, exec (.eraseComplete sb) s = .next t ∧ Tab.get? t.media.sbs sb = none ∧
        Tab.get? t.media.blocks (blockKey die blk) =
          some { ec := (Tab.getD s.media.blocks (blockKey die blk) {}).ec + 1 } ∧
        (dieOf t die).freeBlocks = (dieOf s die).freeBlocks ++ [blk] ∧
        t.media.reclaimed = s.media.reclaimed + 1 ∧ t.media.seq = s.media.seq + 1 ∧ t.namespaces = s.namespaces) ∧
    (wearSpread s = true → wornest s = some grp → b.state = .closed → 64 ≤ s.media.reclaimed → s.media.wlTarget = none →
      Tab.has s.media.sources sb = false → s.media.sbs = [(sb, b)] →
      ∃ t x, exec (.wearLevelMove sb) s = .next t ∧ t.media.sources = Tab.set s.media.sources sb .wear ∧
        t.media.wlTarget = some s.media.nextSb ∧ t.media.reclaimed = 0 ∧ Tab.get? t.media.sbs s.media.nextSb = some x ∧
        x.state = .opened ∧ x.group = grp ∧ x.par2 = b.par2 ∧ t.namespaces = s.namespaces))

/-- R199, R230, R231, R233: a die that is retired gives up its free blocks and waits for its rebuild, and the baseline
is computed again; a program or an erase that fails retires its block and counts it, in dump mode too, where the
stripe's lines are programmed elsewhere; a channel that fails is recorded. Where the spec leaves a choice it follows
assumption 75. -/
def Obligations.DiesBlocksAndChannelsFail : Prop :=
  ∀ (s : State) (die cause sb blk i page : Nat) (ch : Fin 32),
    let retires := fun (i : Instr) (cause : Nat) => ∃ t, exec i s = .next t ∧ (dieOf t die).state = .retired ∧
      (dieOf t die).freeBlocks = [] ∧ (dieOf t die).cause = cause ∧ t.media.rebuilding = s.media.rebuilding ++ [die] ∧
      t.base.running = true ∧ t.namespaces = s.namespaces
    ((dieOf s die).state = .inService → s.media.sbs = [] →
      retires (.dieRetire die cause) cause ∧ retires (.dieBusyTimeout die) 3) ∧
    (∀ b, Tab.get? s.media.sbs sb = some b → b.members.findIdx? (fun m => decide (m.1 = die)) = some i →
      b.members[i]? = some (die, blk) → (Tab.getD s.media.blocks (blockKey die blk) {}).retired = false →
      (dieOf s die).retiredAt = [] →
      (b.dump = true → s.dump.active = true → ∃ t b', exec (.programFail die sb page) s = .next t ∧
        Tab.get? t.media.sbs sb = some b' ∧ b'.state = b.state ∧ b'.programming = [] ∧ b'.members = b.members ∧
        b'.dead = b.dead ++ [i] ∧ t.lines.length = s.lines.length ∧
        (Tab.getD t.media.blocks (blockKey die blk) {}).retired = true ∧ t.media.grownBad = s.media.grownBad + 1 ∧
        t.namespaces = s.namespaces) ∧
      (b.dump = false → 24 < b.members.length → ∃ t b', exec (.programFail die sb page) s = .next t ∧
        Tab.get? t.media.sbs sb = some b' ∧ b'.state = .closed ∧ b'.programming = [] ∧
        (Tab.getD t.media.blocks (blockKey die blk) {}).retired = true ∧ t.media.grownBad = s.media.grownBad + 1 ∧
        (dieOf t die).grownBad = min 65535 ((dieOf s die).grownBad + 1) ∧ t.namespaces = s.namespaces)) ∧
    (∀ b, Tab.get? s.media.sbs sb = some b → b.members.find? (fun m => decide (m.1 = die)) = some (die, blk) →
      (Tab.getD s.media.blocks (blockKey die blk) {}).retired = false → (dieOf s die).retiredAt = [] →
      ∃ t b', exec (.eraseFail die sb) s = .next t ∧ Tab.get? t.media.sbs sb = some b' ∧
        b'.members = b.members.filter (fun x => decide (x.1 ≠ die)) ∧
        (Tab.getD t.media.blocks (blockKey die blk) {}).retired = true ∧ t.media.grownBad = s.media.grownBad + 1) ∧
    (s.media.failedChannels = [] → (∀ d, (dieOf s d).state ≠ .inService) → ∃ t, exec (.flashChannelFail ch) s = .next t ∧
      t.media.failedChannels = [ch.val] ∧ t.base.running = true ∧
      ∃ e ∈ t.faults.ring, e.cls = 0x12 ∧ e.site = { kind := 7, index := ch.val } ∧ e.outcome = 0 ∧ e.aux1 = 2)

/-- R198, R226, R227, R229, R235, R238, R240: a page read counts in its block; a unit that stays uncorrectable is
rebuilt as a masked fault while parity allows; the scrub goes on to the next page; a channel moves to its alternate
engine and back; a die outside its programming window stops programming with the second such reading. -/
def Obligations.ReadsRebuildsAndWindows : Prop :=
  ∀ (s : State) (die blk nsid u issued lost : Nat) (ch : Fin 32) (cws : List CwRead) (n : Namespace),
    let answered := s.media.answered.contains (nsid, u, issued)
    (answered = false → (pageOutcomes s die blk cws).contains .failed = false →
      ∃ t, exec (.pageReadComplete die blk nsid u issued cws lost .agree) s = .next t ∧
        t = { s with media := t.media, book := t.book } ∧ t.media.sbs = s.media.sbs ∧
        (Tab.getD t.media.blocks (blockKey die blk) {}).reads = (Tab.getD s.media.blocks (blockKey die blk) {}).reads + 1) ∧
    (answered = true → ∀ x, exec (.pageReadComplete die blk nsid u issued cws lost x) s =
      .next { s with media := { s.media with answered := s.media.answered.filter (· ≠ (nsid, u, issued)) } }) ∧
    (answered = false → issued + 200000 ≤ s.datum → nsOf s nsid = some n → (entryOf n u).kind = .onNand →
      Tab.get? s.media.sbs (entryOf n u).sb = none → lost ≤ 1 → (nsid, u) ∉ s.media.relocate →
      exec (.readRebuildTimeout die nsid u issued lost) s = .next (refreshUnit nsid u (recordMasked
        { level := 4, cls := 0x10, site := { kind := 8, index := (entryOf n u).die }, slice := n.slice,
          addr := u * unitBlocks n, aux0 := nsid, aux1 := lost }
        { s with media := { s.media with
          parityRebuilds := s.media.parityRebuilds + 1
          answered := s.media.answered ++ [(nsid, u, issued)]
          relocate := s.media.relocate ++ [(nsid, u)] } }))) ∧
    (s.datum < issued + 200000 → exec (.readRebuildTimeout die nsid u issued lost) s = .next s) ∧
    (∀ b sb, Tab.get? s.media.sbs sb = some b → b.state = .closed → b.placed = [] → b.members ≠ [] →
      let pass := s.opsec / 604800 + 1
      let p := if b.scrubPass = pass then b.scrubNext else 0
      if p < b.members.length * b.nextStripe then ∃ t, exec (.mediaScrubRead sb cws lost) s = .next t ∧
        t = { s with media := t.media, book := t.book } ∧
        Tab.get? t.media.sbs sb = some { b with scrubPass := pass, scrubNext := p + 1 }
      else exec (.mediaScrubRead sb cws lost) s = .next s) ∧
    (s.media.adopted = [] → s.media.failedChannels = [] → engineUp s ((ch.val / 4 + 1) % 8) ch.val = true →
      let e : LogEntry := { level := 4, cls := 0x12, site := { kind := 7, index := ch.val },
                            aux0 := 3 * 4096 + (4 * ((ch.val / 4 + 1) % 8) + ch.val % 4), aux1 := 0 }
      let t := { s with media := { s.media with adopted := [ch.val] } }
      (isLit s (ch.val / 4) = false → exec (.channelAdopt ch []) s = .next (recordNote e 0 t)) ∧
      (isLit s (ch.val / 4) = true → engineUp s (ch.val / 4) ch.val = false →
        exec (.channelAdopt ch []) s = .next (recordMasked e t))) ∧
    (engineUp s (ch.val / 4) ch.val = true → s.media.adopted = [ch.val] →
      exec (.channelReturn ch) s = .next (recordNote
        { level := 4, cls := 0x12, site := { kind := 7, index := ch.val }, aux0 := 3 * 4096 + (4 * (ch.val / 4) + ch.val % 4),
          aux1 := 1 } 0 { s with media := { s.media with adopted := [] } })) ∧
    (∀ t0 : Int, (dieOf s die).state = .inService → (dieOf s die).nextSample ≤ s.datum → (dieOf s die).stopped = false →
      (dieOf s die).outCount = 0 → ∃ t, exec (.nandTempSample die (some t0)) s = .next t ∧
        t = { s with media := t.media, book := t.book } ∧
        (dieOf t die).lastTemp = t0 ∧ (dieOf t die).stopped = false ∧ (dieOf t die).nextSample = s.datum + nandGap t0 ∧
        (dieOf t die).outCount = (if t0 < -25 ∨ 95 < t0 then 1 else 0)) ∧
    (∀ t0 : Int, (dieOf s die).state = .inService → (dieOf s die).nextSample ≤ s.datum → (dieOf s die).stopped = false →
      (dieOf s die).outCount = 1 → 95 < t0 →
      ∃ t, exec (.nandTempSample die (some t0)) s = .next t ∧ (dieOf t die).stopped = true) ∧
    (phyReading s (die / 32) = none → exec (.nandTempSample die none) s = .next s)

/-- R250, R253 to R267, R271 to R274: an access enters the queue of its subchannel and is issued in its priority; the
burst is decoded by its symbols, and what is wrong with it is corrected, or loses the burst. An access to a tracked row
raises its count and waits while the row is held; at the threshold the count falls to the lowest of the table and the
row goes on; a refresh window clears the counts; refresh, mode register, calibration and oscillator commands are noted.
Set U is filled up to a size; a clean visit moves traverse on; an uncorrectable SRAM word is a masked fault, which
retires its unit when no retry cleared it; a channel that fails is out of service, breaks its pair and starts the
baseline again. Where the spec leaves a choice it follows assumptions 55 and 56. -/
def Obligations.DramRowsFillAndLoss : Prop :=
  (∀ (s : State) (ch : Fin 8) (sub : Fin 2) (bank row off rank : Nat) (r : DramRequest) (twice drift drfm : Bool),
    let c := dramOf s ch.val
    let l := burstLoc (dramOrg s) ch.val off
    let k := bankKeyOf l
    let count := fun (t : State) (x : Nat) => rowCount (Tab.getD (dramOf t ch.val).tables k []) x
    let sets := fun (i : Instr) (due : Bool) (c' : DramChannel) => exec i s =
      .next (if due = true then { s with dram := { s.dram with channels := Tab.set s.dram.channels ch.val c' } } else s)
    let rate := fun n : Nat => if c.twice then n / 2 else n
    (queueOf s ch.val sub.val = [(off, r)] → c.inService = true → s.dram.selfRefresh = false →
      (stillWaking c = false → maintenanceDue s ch.val = false → c.heldRows = [] →
        count s l.row + 1 < s.dram.rhth → (Tab.getD c.tables k []).any (fun e => decide (e.1 = l.row)) = true →
        (r.write = false ∧ decodeBurst l (burstAt s ch.val off) = .clean ∨
          r.write = true ∧ r.enables = BitVec.allOnes 64 ∧ r.content = .setS) →
        ∃ t, exec (.dramAccessIssue ch sub [] [] [] none) s = .next t ∧ t = { s with dram := t.dram } ∧
          t.dram.bursts = (if r.write then Tab.set s.dram.bursts (burstKey ch.val off) (encodeBurst l r.data) else s.dram.bursts) ∧
          queueOf t ch.val sub.val = [] ∧ (dramOf t ch.val).heldRows = [] ∧ count t l.row = count s l.row + 1 ∧
          ∀ x, x ≠ l.row → count t x = count s x) ∧
      (c.heldRows.contains (k, l.row) = true →
        ∃ t, exec (.dramAccessIssue ch sub [] [] [] none) s = .next t ∧ t = { s with dram := t.dram } ∧
          queueOf t ch.val sub.val = [(off, r)] ∧ t.dram.bursts = s.dram.bursts ∧ (dramOf t ch.val).tables = c.tables)) ∧
    (c.heldRows = [(bank, row)] → (Tab.getD c.tables bank []) = [(row, s.dram.rhth), (row + 1, 7)] → 7 ≤ s.dram.rhth →
      ∃ t, exec (.rowDisturbThreshold ch bank row drfm) s = .next t ∧ t = { s with dram := t.dram } ∧
        (dramOf t ch.val).heldRows = [] ∧ rowCount (Tab.getD (dramOf t ch.val).tables bank []) row = 7 ∧
        rowCount (Tab.getD (dramOf t ch.val).tables bank []) (row + 1) = 7) ∧
    sets (.refreshWindowStart ch) (decide (c.windowAt + rate 3200000 ≤ s.datum)) { c with tables := [], windowAt := s.datum } ∧
    sets (.dramRefresh ch bank) (!s.dram.selfRefresh && decide (c.refreshAt + rate 390 ≤ s.datum))
      { c with refreshes := c.refreshes + 1, refreshAt := c.refreshAt + rate 390 } ∧
    sets (.mr4Poll ch twice) (decide (c.mr4At + 1600000 ≤ s.datum)) { c with twice := twice, mr4At := s.datum } ∧
    sets (.zqCalibration ch rank) (c.zqDue || decide (Tab.getD c.zqAt rank 0 + 12800000 ≤ s.datum))
      { c with zqAt := Tab.set c.zqAt rank s.datum, zqDue := c.zqDue && s.dram.selfRefresh } ∧
    sets (.dqsOscillatorRead ch drift) (oscDue s ch.val)
      { c with oscAt := s.datum, oscDue := c.oscDue && s.dram.selfRefresh,
               oscTemp := (validReading s (40 + ch.val)).getD c.oscTemp, retrainDue := c.retrainDue || drift } ∧
    sets (.dqsRetrain ch true) c.retrainDue { c with retrainDue := false }) ∧
  (∀ (s : State) (ch : Fin 8) (addr mib cause u bits : Nat) (syn : BitVec 7) (lvl : Level) (content : BurstContent),
    let c := dramOf s ch.val
    let a := c.traversed * 64
    let visits := c.inService = true ∧ s.dram.selfRefresh = false ∧ c.revisit = [] ∧ c.traversed < channelBursts s
    let bad := fun (outcome : BurstOutcome) (s' : State) => match outcome with
      | .clean => s
      | .corrected _ => s
      | _ => s'
    let e : LogEntry := { level := levelCode lvl, cls := 0x07, site := { kind := 3, index := u }, addr := addr }
    (∃ l, exec (.setUFill mib) s = .next { s with dram := { s.dram with
      extents := s.dram.extents ++ l, filledMib := max s.dram.filledMib (min mib s.dram.totalMib) } }) ∧
    (visits → decodeBurst (burstLoc (dramOrg s) ch.val a) (burstAt s ch.val a) = .clean →
      exec (.traverseVisit ch [] content) s = .next { s with dram := { s.dram with
        channels := Tab.set s.dram.channels ch.val { c with traversed := c.traversed + 1 } } }) ∧
    (∀ g sy, visits → decodeBurst (burstLoc (dramOrg s) ch.val a) (burstAt s ch.val a) = .corrected g sy →
      ∃ t, exec (.traverseVisit ch [] content) s = .next t ∧ burstAt t ch.val a = sy ∧
        (dramOf t ch.val).traversed = c.traversed + 1 ∧ (dramOf t ch.val).corrected = min (2 ^ 64 - 1) (c.corrected + 1)) ∧
    (c.inService = true → s.dram.selfRefresh = false → c.revisit.contains addr = true →
      decodeBurst (burstLoc (dramOrg s) ch.val addr) (burstAt s ch.val addr) = .clean →
      exec (.revisitRewrite ch addr content) s = .next { s with dram := { s.dram with
        channels := Tab.set s.dram.channels ch.val { c with revisit := c.revisit.filter (· ≠ addr) } } }) ∧
    (c.revisit.contains addr = false → exec (.revisitRewrite ch addr content) s = .next s) ∧
    exec .setSReformComplete s = .next { s with dram := { s.dram with setSReforming := false } } ∧
    (∀ use, exec (.sramSweep { kind := 3, index := u } lvl addr 0 bits use) s = .next s) ∧
    exec (.sramSweep { kind := 3, index := u } lvl addr syn bits .instrCache) s =
      .next (bad (sramOutcome syn bits) (recordMasked e s)) ∧
    exec (.sramSweep { kind := 3, index := u } lvl addr syn bits .other) s =
      .next (bad (sramOutcome syn bits) (retireUnit { kind := 3, index := u } false (recordMasked e s))) ∧
    (c.inService = true → c.queues = [] → s.dram.brokenPairs.contains (ch.val % 4) = false → s.slices = [] →
      ∃ t, exec (.dramChannelFail ch cause) s = .next t ∧
        (dramOf t ch.val).inService = false ∧ t.dram.brokenPairs = s.dram.brokenPairs ++ [ch.val % 4] ∧
        t.dram.setSReforming = true ∧ t.dram.totalMib = s.dram.totalMib - setUMib s ∧
        t.dram.filledMib = min s.dram.filledMib t.dram.totalMib ∧
        t.base.running = true ∧ (∀ d, d ≠ ch.val → dramOf t d = dramOf s d) ∧ t.tasks = s.tasks ∧
        t.namespaces = s.namespaces) ∧
    (c.inService = false → exec (.dramChannelFail ch cause) s = .next s))

/-- R296 to R298: each operation of the ALU group and each immediate form writes its result to wd, for every operand,
w0 and handler banks included, writes no predicate, counts one step and does not trap: sums, logic, shifts, products,
divisions with their corners, minima and maxima, counts of bits, bit fields with the clamp of the register forms, and
byte permutations. -/
def Obligations.AluOperations : Prop :=
  (∀ (s : State) (c : CoreId) (g : Guard) (v : View) (d a b : Reg) (imm : BitVec 12) (sh : BitVec 5), Issues s c g v →
    let x := rd v a
    let y := rd v b
    let n := y.toNat % 32
    RetiresWith (.opAdd c g d a b) c s v d (BitVec.ofNat 32 (x.toNat + y.toNat)) ∧
    RetiresWith (.opSub c g d a b) c s v d (BitVec.ofInt 32 (x.toInt - y.toInt)) ∧
    RetiresWith (.opAnd c g d a b) c s v d (x &&& y) ∧
    RetiresWith (.opOr c g d a b) c s v d (x ||| y) ∧
    RetiresWith (.opXor c g d a b) c s v d (x ^^^ y) ∧
    RetiresWith (.opAndn c g d a b) c s v d (x &&& ~~~y) ∧
    RetiresWith (.opShl c g d a b) c s v d (BitVec.ofNat 32 (x.toNat * 2 ^ n)) ∧
    RetiresWith (.opShr c g d a b) c s v d (BitVec.ofNat 32 (x.toNat / 2 ^ n)) ∧
    RetiresWith (.opSar c g d a b) c s v d (BitVec.ofInt 32 (x.toInt / 2 ^ n)) ∧
    RetiresWith (.opRor c g d a b) c s v d ((x >>> n) ||| (x <<< (32 - n))) ∧
    RetiresWith (.opAddi c g d a imm) c s v d (BitVec.ofInt 32 (x.toInt + imm.toInt)) ∧
    RetiresWith (.opAndi c g d a imm) c s v d (x &&& imm.signExtend 32) ∧
    RetiresWith (.opOri c g d a imm) c s v d (x ||| imm.signExtend 32) ∧
    RetiresWith (.opXori c g d a imm) c s v d (x ^^^ imm.signExtend 32) ∧
    RetiresWith (.opShli c g d a sh) c s v d (BitVec.ofNat 32 (x.toNat * 2 ^ sh.toNat)) ∧
    RetiresWith (.opShri c g d a sh) c s v d (BitVec.ofNat 32 (x.toNat / 2 ^ sh.toNat)) ∧
    RetiresWith (.opSari c g d a sh) c s v d (BitVec.ofInt 32 (x.toInt / 2 ^ sh.toNat)) ∧
    RetiresWith (.opSli c g d a imm) c s v d (BitVec.ofNat 32 (x.toNat * 4096 + imm.toNat))) ∧
  (∀ (s : State) (c : CoreId) (g : Guard) (v : View) (d a b : Reg), Issues s c g v →
    let x := rd v a
    let y := rd v b
    RetiresWith (.opMul c g d a b) c s v d (BitVec.ofNat 32 (x.toNat * y.toNat)) ∧
    RetiresWith (.opMulh c g d a b) c s v d (BitVec.ofInt 32 (x.toInt * y.toInt / 2 ^ 32)) ∧
    RetiresWith (.opMulhu c g d a b) c s v d (BitVec.ofNat 32 (x.toNat * y.toNat / 2 ^ 32)) ∧
    RetiresWith (.opDiv c g d a b) c s v d
      (if y = 0 then 0xFFFFFFFF#32 else BitVec.ofInt 32 (x.toInt.tdiv y.toInt)) ∧
    RetiresWith (.opDivu c g d a b) c s v d
      (if y = 0 then 0xFFFFFFFF#32 else BitVec.ofNat 32 (x.toNat / y.toNat)) ∧
    RetiresWith (.opRem c g d a b) c s v d (if y = 0 then x else BitVec.ofInt 32 (x.toInt.tmod y.toInt)) ∧
    RetiresWith (.opRemu c g d a b) c s v d (if y = 0 then x else BitVec.ofNat 32 (x.toNat % y.toNat)) ∧
    RetiresWith (.opMin c g d a b) c s v d (BitVec.ofInt 32 (min x.toInt y.toInt)) ∧
    RetiresWith (.opMax c g d a b) c s v d (BitVec.ofInt 32 (max x.toInt y.toInt)) ∧
    RetiresWith (.opMinu c g d a b) c s v d (BitVec.ofNat 32 (min x.toNat y.toNat)) ∧
    RetiresWith (.opMaxu c g d a b) c s v d (BitVec.ofNat 32 (max x.toNat y.toNat)) ∧
    RetiresWith (.opClz c g d a) c s v d (BitVec.ofNat 32 (if x = 0 then 32 else 31 - x.toNat.log2)) ∧
    RetiresWith (.opPopc c g d a) c s v d
      (BitVec.ofNat 32 ((List.range 32).filter fun i => x.toNat / 2 ^ i % 2 = 1).length)) ∧
  (∀ (s : State) (c : CoreId) (g : Guard) (v : View) (d a b : Reg) (p w1 : BitVec 5) (sel : BitVec 12),
    Issues s c g v →
    let x := rd v a
    let y := rd v b
    let pos := y.toNat % 32
    let width := min (y.toNat / 32 % 32 + 1) (32 - pos)
    let inserted := fun (z : Word) (p w : Nat) => ∀ i, i < 32 →
      z.getLsbD i = if p ≤ i ∧ i < p + w then x.getLsbD (i - p) else (rd v d).getLsbD i
    let byte := fun (z : Word) (k : Nat) => z.toNat / 2 ^ (8 * k) % 256
    let chosen := fun (z : Word) (n : Nat) (hi : Word) => ∀ k, k < 4 →
      byte z k = (let i := n / 8 ^ k % 8; if i < 4 then byte x i else byte hi (i - 4))
    RetiresWith (.opBfxReg c g d a b) c s v d ((x.extractLsb' pos width).signExtend 32) ∧
    RetiresWith (.opBfxuReg c g d a b) c s v d ((x.extractLsb' pos width).zeroExtend 32) ∧
    (∃ z, RetiresWith (.opBfiReg c g d a b) c s v d z ∧ inserted z pos width) ∧
    (∃ z, RetiresWith (.opPermr c g d a b) c s v d z ∧ chosen z ((rd v d).toNat % 4096) y) ∧
    (∃ z, RetiresWith (.opPerm c g d a sel) c s v d z ∧ chosen z sel.toNat (rd v d)) ∧
    (p.toNat + w1.toNat + 1 ≤ 32 →
      RetiresWith (.opBfx c g d a p w1) c s v d ((x.extractLsb' p.toNat (w1.toNat + 1)).signExtend 32) ∧
      RetiresWith (.opBfxu c g d a p w1) c s v d ((x.extractLsb' p.toNat (w1.toNat + 1)).zeroExtend 32) ∧
      ∃ z, RetiresWith (.opBfi c g d a p w1) c s v d z ∧ inserted z p.toNat (w1.toNat + 1)))

/-- R299 to R301: a compare evaluates its condition and writes the predicate pair in its combine mode; the predicate
operations combine two predicates, each inverted or not; p0 ignores every write. -/
def Obligations.ComparesAndPredicates : Prop :=
  (∀ (s : State) (c : CoreId) (g : Guard) (v : View) (cc : BitVec 4) (mode : BitVec 2) (t : PReg) (a b : Reg)
    (imm : BitVec 12), Issues s c g v → cc.toNat < 12 → mode.toNat < 3 →
    let holds := fun y : Word => let x := rd v a
      match cc.toNat with
      | 0 => decide (x = y)
      | 1 => decide (x ≠ y)
      | 2 => decide (x.toInt < y.toInt)
      | 3 => decide (y.toInt ≤ x.toInt)
      | 4 => decide (x.toNat < y.toNat)
      | 5 => decide (y.toNat ≤ x.toNat)
      | 6 => decide (y.toInt < x.toInt)
      | 7 => decide (x.toInt ≤ y.toInt)
      | 8 => decide (y.toNat < x.toNat)
      | 9 => decide (x.toNat ≤ y.toNat)
      | 10 => decide (x &&& y ≠ 0)
      | _ => decide (x &&& y = 0)
    let f : PReg := if t.val % 2 = 0 then t + 1 else t - 1
    let pairs := fun h : Bool =>
      let onTrue := if mode = 0 then h else if mode = 1 then rdp v t && h else rdp v t || h
      let onFalse := if mode = 0 then !h else if mode = 1 then rdp v f || !h else rdp v f && !h
      setPred (setPred (rdp v) t onTrue) f onFalse
    Retires (.opCmp c g cc mode t a b) c s v (viewPc v + 4) (rd v) (pairs (holds (rd v b))) ∧
    Retires (.opCmpi c g cc mode t a imm) c s v (viewPc v + 4) (rd v) (pairs (holds (imm.signExtend 32)))) ∧
  (∀ (s : State) (c : CoreId) (g : Guard) (v : View) (pd pa pb : PReg) (na nb : Bool), Issues s c g v →
    let x := xor (rdp v pa) na
    let y := xor (rdp v pb) nb
    let writes := fun (i : Instr) (b : Bool) => Retires i c s v (viewPc v + 4) (rd v) (setPred (rdp v) pd b)
    writes (.opPand c g pd pa na pb nb) (x && y) ∧ writes (.opPor c g pd pa na pb nb) (x || y) ∧
    writes (.opPxor c g pd pa na pb nb) (xor x y) ∧ writes (.opPmov c g pd pa na) x)

/-- R281, R283, R289, R302: an aligned load from a translated place whose burst is sound writes the bytes it sees, the
task's own posted stores before memory, sign- or zero-extended; pop does so at ds and raises ds by 4. Nothing else
changes. Where the spec leaves a choice it follows assumptions 8 and 9. -/
def Obligations.LoadsAndPop : Prop :=
  ∀ (s : State) (c : CoreId) (g : Guard) (v : View) (d a : Reg) (imm : BitVec 12), Issues s c g v →
    v.task.storeError = none →
    let reads := fun (x : Word) (n : Nat) => x.toNat % n = 0 ∧
      ∃ sp off w, place s v.t v.task x.toNat = some (sp, off, w) ∧ burstLost s sp off = false
    let byte := fun (x : Word) (i : Nat) =>
      ((bufferedByte v.core.stores (x.toNat + i)).getD (peek s v.t v.task (x.toNat + i))).toNat
    let x := rd v a + imm.signExtend 32
    (reads x 1 → RetiresWith (.opLdb c g d a imm) c s v d ((BitVec.ofNat 8 (byte x 0)).signExtend 32) ∧
      RetiresWith (.opLdbu c g d a imm) c s v d (BitVec.ofNat 32 (byte x 0))) ∧
    (reads x 2 →
      RetiresWith (.opLdh c g d a imm) c s v d ((BitVec.ofNat 16 (byte x 0 + 256 * byte x 1)).signExtend 32) ∧
      RetiresWith (.opLdhu c g d a imm) c s v d (BitVec.ofNat 32 (byte x 0 + 256 * byte x 1))) ∧
    (reads x 4 → RetiresWith (.opLdw c g d a imm) c s v d
      (BitVec.ofNat 32 (byte x 0 + 2 ^ 8 * byte x 1 + 2 ^ 16 * byte x 2 + 2 ^ 24 * byte x 3))) ∧
    (v.core.trapped = false → reads v.task.ds 4 →
      Retires (.opPop c g d) c s { v with task := { v.task with ds := v.task.ds + 4 } } (viewPc v + 4)
        (setAt v d (BitVec.ofNat 32 (byte v.task.ds 0 + 2 ^ 8 * byte v.task.ds 1 + 2 ^ 16 * byte v.task.ds 2
          + 2 ^ 24 * byte v.task.ds 3))) (rdp v))

/-- R283, R289, R302: an aligned store to a place translated for writing retires when it is entered in the core's
8-entry store buffer, behind the stores that wait there; push enters the word at ds − 4 and lowers ds; no byte of
memory changes yet. A store that finds the buffer full first lets the oldest be performed, and then acts as with that
room. -/
def Obligations.StoresAreEntered : Prop :=
  (∀ (s : State) (c : CoreId) (g : Guard) (v : View) (d a : Reg) (imm : BitVec 12), Issues s c g v →
    v.core.stores.length < 8 →
    let writes := fun (x : Word) (n : Nat) => x.toNat % n = 0 ∧
      ∃ sp off, place s v.t v.task x.toNat = some (sp, off, true)
    let entered := fun (x : Word) (bs : List Byte) => { v with core := { v.core with stores := v.core.stores ++ [(x, bs)] } }
    let byte := fun (r : Reg) (k : Nat) => BitVec.ofNat 8 ((rd v r).toNat / 256 ^ k)
    let x := rd v a + imm.signExtend 32
    (writes x 1 → Retires (.opStb c g d a imm) c s (entered x [byte d 0]) (viewPc v + 4) (rd v) (rdp v)) ∧
    (writes x 2 → Retires (.opSth c g d a imm) c s (entered x [byte d 0, byte d 1]) (viewPc v + 4) (rd v) (rdp v)) ∧
    (writes x 4 → Retires (.opStw c g d a imm) c s (entered x [byte d 0, byte d 1, byte d 2, byte d 3])
      (viewPc v + 4) (rd v) (rdp v)) ∧
    (v.core.trapped = false → v.task.dlim.toNat + 4 ≤ v.task.ds.toNat → writes (v.task.ds - 4) 4 →
      Retires (.opPush c g a) c s
        { v with task := { v.task with ds := v.task.ds - 4 }
                 core := { v.core with
                   stores := v.core.stores ++ [(v.task.ds - 4, [byte a 0, byte a 1, byte a 2, byte a 3])] } }
        (viewPc v + 4) (rd v) (rdp v))) ∧
  (∀ (s : State) (c : CoreId) (g : Guard) (v : View) (d a : Reg) (imm : BitVec 12), Issues s c g v →
    v.core.stores.length = 8 →
    let writes := fun (x : Word) (n : Nat) => x.toNat % n = 0 ∧
      ∃ sp off, place s v.t v.task x.toNat = some (sp, off, true)
    let x := rd v a + imm.signExtend 32
    ∃ t, exec (.storePerform c) s = .next t ∧ (coreOf t c.val).stores.length = 7 ∧
      (writes x 1 → exec (.opStb c g d a imm) s = exec (.opStb c g d a imm) t) ∧
      (writes x 2 → exec (.opSth c g d a imm) s = exec (.opSth c g d a imm) t) ∧
      (writes x 4 → exec (.opStw c g d a imm) s = exec (.opStw c g d a imm) t))

/-- R283, R284: the oldest posted store of a core is performed at the place that the task's translation gives: the
bytes there read as those of the store, every other byte of every memory reads as before, the buffer holds the younger
stores, and nothing else of any task or core changes. out, sigev, wait, yield, halt and fence act only once every
earlier store has been performed. -/
def Obligations.OldestStoreIsPerformed : Prop :=
  (∀ (s : State) (c : CoreId) (v : View) (a : Word) (bs : List Byte) (rest : List (Word × List Byte)) (sp : Space)
    (off : Nat), running s c = some v → v.core.stores = (a, bs) :: rest →
    (bs.length = 1 ∨ bs.length = 2 ∨ bs.length = 4) → a.toNat % bs.length = 0 →
    place s v.t v.task a.toNat = some (sp, off, true) → off % bs.length = 0 → burstLost s sp off = false →
    ∃ t, exec (.storePerform c) s = .next t ∧
      (∀ i, (h : i < bs.length) → (spaceMem t sp).read (off + i) = bs[i]) ∧
      (∀ sp' x, (sp' ≠ sp ∨ x < off ∨ off + bs.length ≤ x) → (spaceMem t sp').read x = (spaceMem s sp').read x) ∧
      t = { s with cores := t.cores, tasks := t.tasks, invs := t.invs, slices := t.slices, setU := t.setU } ∧
      coreOf t c.val = { v.core with stores := rest } ∧ (∀ j, j ≠ c.val → coreOf t j = coreOf s j) ∧
      (∀ i, (taskOf t i).map (fun k => { k with scratch := [], priv := [] })
        = (taskOf s i).map (fun k => { k with scratch := [], priv := [] }))) ∧
  (∀ (s : State) (c : CoreId) (g : Guard) (v : View) (d a b : Reg) (imm : BitVec 12), Issues s c g v →
    v.core.stores ≠ [] → portTrap v (portNo v a imm) = none →
    ∃ t, exec (.storePerform c) s = .next t ∧ (coreOf t c.val).stores.length + 1 = v.core.stores.length ∧
      exec (.opOut c g d a imm) s = exec (.opOut c g d a imm) t ∧
      exec (.opSigev c g d a b) s = exec (.opSigev c g d a b) t ∧
      exec (.opWait c g d a) s = exec (.opWait c g d a) t ∧ exec (.opWaitAll c g d a) s = exec (.opWaitAll c g d a) t ∧
      exec (.opYield c g) s = exec (.opYield c g) t ∧ exec (.opHalt c g a) s = exec (.opHalt c g a) t ∧
      exec (.opFence c g) s = exec (.opFence c g) t)

/-- R290, R291, R306, R312: a branch, jump or call goes to a target that is a multiple of 4, below 2²⁴ and within the
running image. A call pushes pc + 4 on the return stack of the task, whose newest entries lie on the chip and whose
others in the task's spill area, or on the handler's while one runs, and a return pops it. -/
def Obligations.ControlTransfers : Prop :=
  ∀ (s : State) (c : CoreId) (g : Guard) (v : View) (a : Reg) (off : BitVec 22) (top : Word) (rest : List Word),
    Issues s c g v →
    let ok := fun x : Word => x.toNat % 4 = 0 ∧ x.toNat < 2 ^ 24 ∧ x.toNat < imageBytes s v
    let near := viewPc v + 4 * off.signExtend 32
    let far := rd v a
    let u := v.core
    let room := if u.trapped then u.hstack.length < 16 else u.rchip.length + v.task.rstack.length < 4096
    let back := viewPc v + 4
    let pushed : View :=
      if u.trapped then { v with core := { u with hstack := back :: u.hstack } }
      else if u.rchip.length < 64 then { v with core := { u with rchip := back :: u.rchip } }
      else { v with core := { u with rchip := back :: u.rchip.take 32 }
                    task := { v.task with rstack := u.rchip.drop 32 ++ v.task.rstack } }
    (ok near → Retires (.opBr c g off) c s v near (rd v) (rdp v)) ∧
    (ok far → Retires (.opJi c g a) c s v far (rd v) (rdp v)) ∧
    (ok near → room → Retires (.opCall c g off) c s pushed near (rd v) (rdp v)) ∧
    (ok far → room → Retires (.opCalli c g a) c s pushed far (rd v) (rdp v)) ∧
    (ok top →
      (u.trapped = true → u.hstack = top :: rest →
        Retires (.opRet c g) c s { v with core := { u with hstack := rest } } top (rd v) (rdp v)) ∧
      (u.trapped = false → u.rchip = top :: rest →
        Retires (.opRet c g) c s { v with core := { u with rchip := rest } } top (rd v) (rdp v)) ∧
      (u.trapped = false → u.rchip = [] → v.task.rstack = top :: rest →
        Retires (.opRet c g) c s { v with core := { u with rchip := rest.take 31 }
                                          task := { v.task with rstack := rest.drop 31 } } top (rd v) (rdp v)))

/-- R278, R303 to R305, R309: a program reads the special registers 0 to 8 and writes 1, 2 and 8; firmware reads 9 to
13 also, writes tbase, and tpc and tstat while a handler runs. A firmware task's steps takes no write, and a write of a
program's steps clears its exhaustion flag. -/
def Obligations.SpecialRegisters : Prop :=
  ∀ (s : State) (c : CoreId) (g : Guard) (v : View) (d a : Reg), Issues s c g v →
    let reads := fun (n : BitVec 12) (x : Word) => RetiresWith (.opMfs c g d n) c s v d x
    let x := rd v a
    let writes := fun (n : BitVec 12) (w : View) => Retires (.opMts c g a n) c s w (viewPc v + 4) (rd v) (rdp v)
    reads 0 (viewPc v) ∧ reads 1 v.task.ds ∧ reads 2 v.task.dlim ∧
    reads 3 (BitVec.ofNat 32 (v.core.rchip.length + v.task.rstack.length)) ∧ reads 4 (tidOf v.t v.task) ∧
    reads 5 (BitVec.ofNat 32 v.task.slice) ∧ reads 6 (BitVec.ofNat 32 c.val) ∧ reads 7 v.task.steps ∧
    (∃ f : Word, reads 8 f ∧ f.getLsbD 31 = viewFw v ∧ f.getLsbD 30 = v.core.trapped ∧ f.getLsbD 8 = true ∧
      (∀ p : PReg, p ≠ 0 → f.getLsbD (8 + p.val) = rdp v p) ∧ (∀ i, i < 8 → f.getLsbD i = false) ∧
      ∀ i, 16 ≤ i → i < 30 → f.getLsbD i = false) ∧
    (viewFw v = true → reads 9 v.core.tcause ∧ reads 10 v.core.tpc ∧ reads 11 v.core.tval ∧ reads 12 v.core.tstat ∧
      reads 13 v.core.tbase) ∧
    writes 1 { v with task := { v.task with ds := x } } ∧ writes 2 { v with task := { v.task with dlim := x } } ∧
    Retires (.opMts c g a 8) c s v (viewPc v + 4) (rd v)
      (fun p => if p = 0 then true else x.getLsbD (8 + p.val)) ∧
    (viewFw v = true → v.task.fw = false →
      writes 7 { v with task := { v.task with steps := x, exhausted := false } }) ∧
    (v.task.fw = true → viewFw v = true → writes 7 v) ∧
    (v.core.trapped = true → writes 10 { v with core := { v.core with tpc := x &&& 0xFFFFFF#32 } } ∧
      writes 12 { v with core := { v.core with tstat := x &&& 0x8000FFFF#32 } }) ∧
    (viewFw v = true → writes 13 { v with core := { v.core with tbase := x &&& 0xFFFFC0#32 } })

/-- R307, R308, R318, R324 to R326: a wait whose mask is met takes the flags that are set and goes on, else the task
waits without its core; sigev sets a flag of the named task or answers 1; fence goes on when no store waits; yield
makes the task ready; halt ends it with its status and keeps its held effects. Where the spec leaves a choice it
follows assumption 42. -/
def Obligations.SystemGroup : Prop :=
  ∀ (s : State) (c : CoreId) (g : Guard) (v : View) (d a b : Reg), Issues s c g v →
    v.core.stores = [] → v.task.storeError = none → coreOfTask s v.t = some v.c →
    let m := rd v a
    let flags := v.task.flags
    let anyMet := m = 0 ∨ flags &&& m ≠ 0
    let allMet := m = 0 ∨ flags &&& m = m
    let taken := { v with task := { v.task with flags := flags &&& ~~~ m } }
    let waits := fun (i : Instr) (all : Bool) => ∃ t k, exec i s = .next t ∧ (coreOf t v.c).run = none ∧
      taskOf t v.t = some k ∧ k.phase = .waiting ∧ k.mask = m ∧ k.maskAll = all ∧ k.waitReg = some d ∧
      k.flags = flags ∧ k.regs = v.task.regs ∧ k.lastCore = some v.c
    (anyMet → Retires (.opWait c g d a) c s taken (viewPc v + 4) (setAt v d (flags &&& m)) (rdp v)) ∧
    (allMet → Retires (.opWaitAll c g d a) c s taken (viewPc v + 4) (setAt v d (flags &&& m)) (rdp v)) ∧
    (¬anyMet → waits (.opWait c g d a) false) ∧ (¬allMet → waits (.opWaitAll c g d a) true) ∧
    Retires (.opFence c g) c s v (viewPc v + 4) (rd v) (rdp v) ∧
    (v.task.sigevLog.length ≤ v.task.sigevs →
      let counted := fun r : Word =>
        { v with task := { v.task with sigevs := v.task.sigevs + 1, sigevLog := v.task.sigevLog ++ [r] } }
      (∀ i k, taskOf s i = some k → i < 16384 → i ≠ v.t → tidOf i k = m → (viewFw v = true ∨ k.slice = v.task.slice) →
        RetiresAfter (.opSigev c g d a b) c s (setFlag i ((rd v b).toNat % 32) s) (counted 0) (viewPc v + 4)
          (setAt v d 0) (rdp v)) ∧
      ((∀ k, taskOf s (m.toNat % 16384) = some k →
          tidOf (m.toNat % 16384) k ≠ m ∨ (viewFw v = false ∧ k.slice ≠ v.task.slice)) →
        Retires (.opSigev c g d a b) c s (counted 1) (viewPc v + 4) (setAt v d 1) (rdp v))) ∧
    (∃ t k, exec (.opYield c g) s = .next t ∧ (coreOf t v.c).run = none ∧ taskOf t v.t = some k ∧ k.phase = .ready ∧
      k.readySince = s.datum ∧ k.regs = v.task.regs ∧ (v.core.trapped = false → k.pc = viewPc v + 4)) ∧
    (m.toNat % 256 < 0x40 → ∃ t k, exec (.opHalt c g a) s = .next t ∧ (coreOf t v.c).run = none ∧
      taskOf t v.t = some k ∧ k.phase = .ended ∧ k.endStatus = m.toNat % 256 ∧ k.effects = v.task.effects ∧
      k.holding = v.task.holding)

/-- R308, R312, R314, R315: trap with a defined service enters the handler: tpc, tval, tcause and tstat are set,
TRAPPED is set, the handler's return stack is empty and fetch goes to tbase, and the task keeps its registers. tret in
a handler clears TRAPPED and resumes at tpc with the privilege and the image of tstat. -/
def Obligations.TrapEntryAndReturn : Prop :=
  ∀ (s : State) (c : CoreId) (g : Guard) (v : View) (imm : BitVec 12), Issues s c g v →
    (v.core.trapped = false → (imm = 1 ∨ imm = 2 ∨ imm = 3) →
      let u := v.core
      exec (.opTrap c g imm) s = .next (setCore s v.c { u with
        trapped := true, tpc := v.task.pc &&& 0xFFFFFF#32, tval := imm.zeroExtend 32,
        tcause := (if u.fw then 0x80000000#32 else 0) ||| (imm.zeroExtend 32 <<< 8) ||| 0x0D#32,
        tstat := (if u.fw then 0x80000000#32 else 0) ||| BitVec.ofNat 32 (u.slot % 65536),
        hpc := u.tbase &&& 0xFFFFC0#32, hstack := [], slot := 0xFFFF })) ∧
    (v.core.trapped = true →
      exec (.opTret c g) s = .next (setCore (setTask s v.t { v.task with pc := v.core.tpc }) v.c
        { v.core with trapped := false, fw := v.core.tstat.getLsbD 31, slot := v.core.tstat.toNat % 65536 }))

/-- R293, R303: an Opxus instruction whose guard is false retires with no effect, whatever it would have done; it
counts one step. -/
def Obligations.FalseGuardHasNoEffect : Prop :=
  ∀ (i : Instr) (s : State) (c : CoreId) (g : Guard) (v : View), opHead i = some (c, g, true) →
    running s c = some v → (viewFw v = true ∨ v.task.exhausted = false) →
    (viewPc v).toNat < imageBytes s v → guardTrue v g = false →
    Retires i c s v (viewPc v + 4) (rd v) (rdp v)

/-- R294, R303, R310, R313, R314: what ends a program task with a trap, form by form: an exhausted budget before all
else, a fetch beyond the image, an illegal encoding whatever its guard, then what the instruction itself meets; the
core keeps the trap registers and log 0xC4 records cause, tpc and tval. Where the spec leaves a choice it follows
assumptions 41 and 44. -/
def Obligations.TrapsEndProgramTasks : Prop :=
  ∀ (s : State) (c : CoreId) (g : Guard) (v : View) (d a : Reg) (imm : BitVec 12) (off : BitVec 22),
    running s c = some v → v.core.trapped = false → v.core.fw = false → coreOfTask s v.t = some v.c →
    let x := rd v a + imm.signExtend 32
    let port := (rd v a + imm.zeroExtend 32).toNat % 65536
    let near := viewPc v + 4 * off.signExtend 32
    (v.task.exhausted = true → TrapsWith (.stepBudgetExhausted c) s v 0x0E 0 0 ∧
      ∀ i legal, opHead i = some (c, g, legal) → TrapsWith i s v 0x0E 0 0) ∧
    (v.task.exhausted = false → imageBytes s v ≤ (viewPc v).toNat →
      ∀ i legal, opHead i = some (c, g, legal) → TrapsWith i s v 0x09 (viewPc v) 0) ∧
    (v.task.exhausted = false → (viewPc v).toNat < imageBytes s v →
      ∀ i, opHead i = some (c, g, false) → ∃ word, TrapsWith i s v 0x01 word 0) ∧
    (Issues s c g v →
      (x.toNat % 4 ≠ 0 → TrapsWith (.opLdw c g d a imm) s v 0x05 x 0 ∧ TrapsWith (.opStw c g d a imm) s v 0x05 x 0) ∧
      (x.toNat % 4 = 0 → place s v.t v.task x.toNat = none →
        TrapsWith (.opLdw c g d a imm) s v 0x06 x 0 ∧ TrapsWith (.opStw c g d a imm) s v 0x06 x 0) ∧
      (∀ w, x.toNat % 4 = 0 → place s v.t v.task x.toNat ≠ none → v.task.storeError = some w →
        TrapsWith (.opLdw c g d a imm) s v 0x07 w 0) ∧
      (v.task.ds.toNat < v.task.dlim.toNat + 4 → TrapsWith (.opPush c g a) s v 0x0A v.task.ds 0) ∧
      (¬targetOk s v near → TrapsWith (.opBr c g off) s v 0x09 near 0) ∧
      (4096 ≤ v.core.rchip.length + v.task.rstack.length →
        TrapsWith (.opCall c g off) s v 0x0B (BitVec.ofNat 32 (v.core.rchip.length + v.task.rstack.length)) 0) ∧
      (v.core.rchip = [] → v.task.rstack = [] → TrapsWith (.opRet c g) s v 0x0C 0 0) ∧
      ((port / 256 = 0x08 ∨ port / 256 = 0x09 ∨ port / 256 = 0x0A ∨ port / 256 = 0x0F) →
        TrapsWith (.opIn c g d a imm) s v 0x03 (BitVec.ofNat 32 port) 0 ∧
        TrapsWith (.opOut c g d a imm) s v 0x03 (BitVec.ofNat 32 port) 0) ∧
      ((0x0A < port / 256 ∧ port / 256 ≠ 0x0F) →
        TrapsWith (.opIn c g d a imm) s v 0x04 (BitVec.ofNat 32 port) 0 ∧
        TrapsWith (.opOut c g d a imm) s v 0x04 (BitVec.ofNat 32 port) 0) ∧
      (∃ word, TrapsWith (.opTret c g) s v 0x02 word 0) ∧
      (3 < imm.toNat ∨ imm = 0 → TrapsWith (.opTrap c g imm) s v 0x0D (imm.zeroExtend 32) imm.toNat))

/-- R27, R282, R302, R341, R353: in and out name port (wa + zext(IMM))[15:0]; what these ports, which have no further
effect, read and write: the task's own registers of the ranges 0x0000, 0x0100 and 0x0700. -/
def Obligations.PlainPorts : Prop :=
  ∀ (s : State) (c : CoreId) (g : Guard) (v : View) (d a : Reg) (imm : BitVec 12), Issues s c g v →
    v.task.storeError = none → v.core.stores = [] →
    let port := (rd v a + imm.zeroExtend 32).toNat % 65536
    let reads := fun (n : Nat) (x : Word) => port = n → RetiresWith (.opIn c g d a imm) c s v d x
    let x := rd v d
    let writes := fun (n : Nat) (q : PortRegs) => port = n →
      Retires (.opOut c g d a imm) c s { v with task := { v.task with ports := q } } (viewPc v + 4) (rd v) (rdp v)
    let p := v.task.ports
    reads 0x0000 (tidOf v.t v.task) ∧ reads 0x0001 v.task.flags ∧ reads 0x0010 p.spSlot ∧ reads 0x0011 p.spBudget ∧
    reads 0x0012 p.spCtl ∧ reads 0x0013 p.spMask ∧ reads 0x0014 p.spArgs[0] ∧ reads 0x0015 p.spArgs[1] ∧ reads 0x0016 p.spArgs[2] ∧
    reads 0x0017 p.spArgs[3] ∧
    reads 0x0142 (BitVec.ofNat 32 (p.plStatus % 256)) ∧ reads 0x0144 p.plQinfo ∧ reads 0x0150 p.plCfg ∧
    reads 0x0151 p.plQuota ∧ reads 0x0702 p.alarmLo ∧ reads 0x0703 p.alarmHi ∧
    writes 0x0010 { p with spSlot := x &&& 0x3FF#32 } ∧ writes 0x0011 { p with spBudget := x } ∧
    writes 0x0013 { p with spMask := x } ∧ writes 0x0014 { p with spArgs := p.spArgs.set 0 x } ∧
    writes 0x0015 { p with spArgs := p.spArgs.set 1 x } ∧ writes 0x0016 { p with spArgs := p.spArgs.set 2 x } ∧
    writes 0x0017 { p with spArgs := p.spArgs.set 3 x } ∧
    writes 0x0150 { p with plCfg := x &&& 0x3FFFFFF#32 } ∧ writes 0x0702 { p with alarmLo := x } ∧
    writes 0x0703 { p with alarmHi := x }

/-- R28: a read of DT_NOW_LO returns bits [31:0] of the region's copy of the datum and captures bits [63:32]; a read of
DT_NOW_HI returns the captured half, or the present one when the task has captured none. -/
def Obligations.DatumPairReads : Prop :=
  ∀ (s : State) (c : CoreId) (g : Guard) (v : View) (d a : Reg) (imm : BitVec 12), Issues s c g v →
    v.task.storeError = none → v.core.stores = [] →
    let port := (rd v a + imm.zeroExtend 32).toNat % 65536
    let now := Tab.getD s.copies (c.val / 32) s.datum
    let high := BitVec.ofNat 32 (now / 2 ^ 32)
    let captured := { v with task := { v.task with ports := { v.task.ports with nowHi := some high } } }
    (port = 0x0700 → Retires (.opIn c g d a imm) c s captured (viewPc v + 4) (setAt v d (BitVec.ofNat 32 now)) (rdp v)) ∧
    (∀ x, port = 0x0701 → v.task.ports.nowHi = some x → RetiresWith (.opIn c g d a imm) c s v d x) ∧
    (port = 0x0701 → v.task.ports.nowHi = none → RetiresWith (.opIn c g d a imm) c s v d high) ∧
    Retires (.dtNowLoRead c d) c s captured (viewPc v + 4) (setAt v d (BitVec.ofNat 32 now)) (rdp v)

/-- R28, R30, R341, R343, R345 to R354: the alarm control port disarms and clears FIRED, TK_CLRF clears flags, PL_ALLOC
takes the lowest free buffer, PL_FREE and PL_SHARE act at once for a held buffer and are held until release for
another, PL_QUERY reports a buffer. A spawn that passes its checks creates a task of the spawner's slice and region
with its parameters and takes its budget from the spawner; PL_CREATE makes a pool in the slice's window and charges its
memory, and PL_DESTROY frees a pool without allocated buffers. Where the spec leaves a choice it follows assumptions
10, 45 and 46. -/
def Obligations.DatumTaskAndPoolPorts : Prop :=
  (∀ (s : State) (c : CoreId) (v : View) (r : Reg) (n : Fin 64), Issues s c Guard.always v →
    v.task.storeError = none → v.core.stores = [] →
    let k := v.task
    let x := rd v r
    let next := viewPc v + 4
    let withPorts := fun q : PortRegs => { v with task := { k with ports := q } }
    let own := fun (m : Nat) (p : Pool) => Tab.get? s.poolTab m = some p ∧ (viewFw v = true ∨ p.slice = k.slice)
    let now := Tab.getD s.copies (c.val / 32) s.datum
    Retires (.dtNowLoRead c r) c s (withPorts { k.ports with nowHi := some (BitVec.ofNat 32 (now / 2 ^ 32)) }) next
      (setAt v r (BitVec.ofNat 32 now)) (rdp v) ∧
    (x.getLsbD 31 = false → Retires (.dtAlarmCtlWrite c r) c s
      (withPorts { k.ports with arm := false, fired := k.ports.fired && !x.getLsbD 30, alarmFlag := x.toNat % 32 })
      next (rd v) (rdp v)) ∧
    Retires (.tkClrfWrite c r) c s { v with task := { k with flags := k.flags &&& ~~~x } } next (rd v) (rdp v) ∧
    (∀ p i, own n.val p → k.holding.length < 256 → (forerunner s p.slice = true → p.quota = 0) →
      i < p.count → Tab.get? p.used i = none → (∀ j, j < i → Tab.get? p.used j ≠ none) →
      let at_ := p.base + i * 2 ^ p.log2sz
      RetiresAfter (.plAllocRead c r n) c s
        { s with poolTab := Tab.set s.poolTab n.val { p with used := Tab.set p.used i (1, k.slot) } }
        { v with task := { k with holding := k.holding ++ [(at_, 1)] } } next
        (setAt v r (BitVec.ofNat 32 at_)) (rdp v)) ∧
    (∀ m p i q, bufferAt s k.slice x.toNat = some (m, p, i) → Tab.get? s.poolTab m = some p →
      Tab.get? p.used i = some q →
      let done := withPorts { k.ports with plStatus := 0 }
      (k.holding.all (fun e => decide (e.1 ≠ x.toNat)) = true → viewFw v = false →
        Retires (.plFreeWrite c r) c s
          { done with task := { done.task with effects := k.effects ++ [.poolFree x.toNat] } } next (rd v) (rdp v) ∧
        (q.1 ≠ 65535 → Retires (.plShareWrite c r) c s
          { done with task := { done.task with effects := k.effects ++ [.poolShare x.toNat] } } next (rd v) (rdp v))) ∧
      (k.holding.any (fun e => decide (e.1 = x.toNat)) = true →
        RetiresAfter (.plFreeWrite c r) c s (lowerRef m i 1 s)
          { done with task := { done.task with holding := holdChange k.holding x.toNat false } } next (rd v) (rdp v) ∧
        (q.1 ≠ 65535 → RetiresAfter (.plShareWrite c r) c s (raiseRef m i s)
          { done with task := { done.task with holding := holdChange k.holding x.toNat true } } next (rd v)
          (rdp v))) ∧
      Retires (.plQueryWrite c r) c s (withPorts { k.ports with
        plQinfo := BitVec.ofNat 32 (2 ^ 31 + 2 ^ 30 + m % 64 * 2 ^ 24 + q.1 % 65536) }) next (rd v) (rdp v))) ∧
  (∀ (s : State) (c : CoreId) (v : View) (r : Reg), Issues s c Guard.always v →
    v.task.storeError = none → v.core.stores = [] → viewFw v = false →
    let k := v.task
    let next := viewPc v + 4
    let withPorts := fun q : PortRegs => { v with task := { k with ports := q } }
    (∀ g, k.spawnLog.length ≤ k.spawns → k.ports.spCtl = 0 →
      Tab.get? s.progs (k.ports.spSlot.toNat % 1024) = some g → g.closing = false → g.slice = k.slice →
      k.ports.spBudget.toNat + 1 ≤ k.steps.toNat → taskAvailable s k.slice = true → freeTaskIndex s ≠ v.t →
      ∃ child log, child.slice = k.slice ∧ child.slot = k.ports.spSlot.toNat % 1024 ∧ child.region = k.region ∧
        child.fw = false ∧ child.steps = k.ports.spBudget ∧ child.regs = startRegs k.ports.spArgs.toList ∧
        child.preds = 1 ∧ child.mask = k.ports.spMask ∧ child.flow = none ∧ child.inv = k.inv ∧
        child.phase = (if k.ports.spMask = 0 then .ready else .waiting) ∧
        child.pc = BitVec.ofNat 32 g.entry ∧
        RetiresAfter (.spGoRead c r) c s (setTask (drew 1 s) (freeTaskIndex s) child)
          { v with task := { k with steps := k.steps - (k.ports.spBudget + 1), spawns := k.spawns + 1, spawnLog := log } }
          next (setAt v r (tidOf (freeTaskIndex s) child)) (rdp v)) ∧
    (∀ n b, let cfg := k.ports.plCfg.toNat
      let lg := cfg / 2 ^ 21 % 32
      let count := cfg % 2 ^ 21 + 1
      12 ≤ lg → lg ≤ 21 → count ≤ 2 ^ 20 → freePoolNo s = some n →
      dramRoom s k.slice (mibOf (count * 2 ^ lg)) = true → poolPlace s k.slice (2 ^ lg) (count * 2 ^ lg) = some b →
      let p : Pool := { slice := k.slice, log2sz := lg, count := count, base := b, region := k.region,
                        quota := k.ports.plQuota.toNat % 2 ^ 21 }
      RetiresAfter (.plCreateRead c r) c s
        (charge k.slice (mibOf (count * 2 ^ lg)) (drew 1 { s with poolTab := Tab.set s.poolTab n p }))
        (withPorts { k.ports with plStatus := 0 }) next (setAt v r (BitVec.ofNat 32 n)) (rdp v)) ∧
    (∀ p, Tab.get? s.poolTab ((rd v r).toNat % 64) = some p → p.slice = k.slice → p.used = [] →
      stagedOn s p = false →
      RetiresAfter (.plDestroyWrite c r) c s
        (credit p.slice (mibOf (p.count * 2 ^ p.log2sz))
          { s with poolTab := Tab.erase s.poolTab ((rd v r).toNat % 64) })
        (withPorts { k.ports with plStatus := 0 }) next (rd v) (rdp v)))

/-- R318, R322, R325, R327, R329, R330, R332 to R335, R368, R386: a region's scheduler chooses the ready firmware task
with the earliest deadline before all others and gives it a core that it allows; a dispatched task runs with its
satisfied wait completed; preemption writes the on-chip part of its return stack out, and neither it nor migration
changes a task's registers. An ended task is released in its turn and not before; its release frees its index, whose
generation rises, and the release of an invocation's last task completes the Invoke and makes its result record
readable. Where the spec leaves a choice it follows assumptions 13 and 50. -/
def Obligations.SchedulingAndReleases : Prop :=
  (∀ (s : State) (r : RegionId),
    (∀ t k, chooseTask s r.val = some (t, k) → (t, k) ∈ readyTasks s r.val ∧
      ∀ p ∈ readyTasks s r.val, p.2.fw = true → ∀ d, p.2.deadline = some d →
        k.fw = true ∧ ∃ e, k.deadline = some e ∧ e ≤ d) ∧
    (∀ k c, coreFor s r.val k = some c → (coreOf s c).run = none ∧ coreUsable s c = true ∧ c / 32 = r.val) ∧
    (∀ k c, k.lastCore = some c → c / 32 = r.val → (coreOf s c).run = none → coreUsable s c = true →
      domainOn s r.val (c % 32) = true → coreFor s r.val k = some c) ∧
    (∀ t k c, isLit s r.val = true → coreAllowed s r.val k = true → chooseTask s r.val = some (t, k) → taskOf s t = some k →
      coreFor s r.val k = some c → Tab.has s.contexts (savedKey t) = false → domainOn s r.val (c % 32) = true →
      ∃ u k', exec (.taskDispatch r) s = .next u ∧ u = { s with tasks := u.tasks, cores := u.cores, dispatched := u.dispatched } ∧
        (∀ i, i ≠ t → taskOf u i = taskOf s i) ∧ (∀ j, j ≠ c → coreOf u j = coreOf s j) ∧
        coreOf u c = { coreOf s c with run := some t, fw := k.fw, slot := k.slot, trapped := false, stores := [], rchip := [] } ∧
        taskOf u t = some k' ∧ k' = { k with phase := .running, waitReg := none, mask := 0, maskAll := false,
                                             runSince := s.datum, regs := k'.regs, flags := k'.flags } ∧
        (k.waitReg = none → k'.regs = k.regs ∧ k'.flags = k.flags) ∧
        ∀ d : Reg, k.waitReg = some d → k'.flags = k.flags &&& ~~~k.mask ∧
          (d ≠ 0 → k'.regs[d] = k.flags &&& k.mask) ∧ (d = 0 → k'.regs = k.regs) ∧
          ∀ e : Reg, e ≠ d → k'.regs[e] = k.regs[e]) ∧
    (chooseTask s r.val = none → exec (.taskDispatch r) s = .next s) ∧
    (isLit s r.val = false → exec (.taskDispatch r) s = .next s) ∧
    (∀ t k, chooseTask s r.val = some (t, k) → coreAllowed s r.val k = false → exec (.taskDispatch r) s = .next s) ∧
    (∀ (c : CoreId) v p, running s c = some v → coreOfTask s v.t = some v.c → v.core.stores = [] →
      v.task.deadline = none →
      p ∈ readyTasks s (regionOf c) → ((∃ d, p.2.deadline = some d) ∧ idleCoreList s (regionOf c) = [] ∨
        p.2.slice ≠ v.task.slice ∧ v.task.runSince + 100000 ≤ s.datum) →
      ∃ u, exec (.taskPreempt c) s = .next u ∧ u = { s with tasks := u.tasks, cores := u.cores } ∧
        coreOf u v.c = { v.core with run := none, idleSince := s.datum, trapped := false, rchip := [] } ∧
        taskOf u v.t = some { v.task with phase := .ready, readySince := s.datum, lastCore := some v.c
                                          rstack := v.core.rchip ++ v.task.rstack } ∧
        ∀ i, i ≠ v.t → taskOf u i = taskOf s i) ∧
    (∀ (c : CoreId) v, running s c = some v → (∀ d, v.task.deadline = some d → exec (.taskPreempt c) s = .next s) ∧
      (readyTasks s (regionOf c) = [] → exec (.taskPreempt c) s = .next s)) ∧
    (∀ t k, taskOf s t = some k → opBusy k = false → (∀ e ∈ s.contexts, e.2.owner ≠ .task t) →
      (∀ q, k.phase = .ready → k.readySince + 50000 ≤ s.datum → idleRegion s k.region = some q →
        exec (.taskMigrateLoad t) s = .next (setTask s t { k with region := q })) ∧
      (k.phase ≠ .ready → exec (.taskMigrateLoad t) s = .next s) ∧
      ((region s k.region).state = .penumbra → k.phase ≠ .running →
        exec (.taskMigratePenumbra t) s = .next (setTask s t { k with region := nextLit s k.region })) ∧
      ((region s k.region).state ≠ .penumbra → exec (.taskMigratePenumbra t) s = .next s)) ∧
    (∀ t k, taskOf s t = some k → opBusy k = true →
      exec (.taskMigrateLoad t) s = .next s ∧ exec (.taskMigratePenumbra t) s = .next s)) ∧
  (∀ (s : State) (t : Nat) (k : Task), taskOf s t = some k →
    (k.phase = .ended → k.endStatus < 0x40 → k.flow = none → k.effects.filter isLbaOut = [] →
      (∀ i x, k.inv = some i → Tab.get? s.invs i = some x → namedRangeSealed s x = false) →
      exec (.taskRelease t) s = .next (setTask s t { k with phase := .releasing, effects := k.effects })) ∧
    (∀ f n w, k.phase = .ended → k.flow = some (f, n) → Tab.get? s.flows f = some w → w.turn.toNat ≠ n →
      exec (.taskRelease t) s = .next s) ∧
    (k.phase ≠ .ended → exec (.taskRelease t) s = .next s) ∧
    (s.tasks = [(t, k)] → k.phase = .releasing → k.flow = none → s.writes = [] → s.waitingInvokes = [] →
      Tab.get? s.progs k.slot = none → s.turns = [] → (∀ e ∈ s.slices, e.2.state ≠ .destroying) →
      (k.inv = none → k.effects = [] → exec (.releaseComplete t) s = .next { s with
        tasks := [], gens := Tab.set s.gens t ((k.gen + 1) % 32768)
        stu := s.stu.filter fun e => decide (e.task ≠ some t) }) ∧
      (∀ i x r bs, k.inv = some i → k.root = true → k.endStatus < 0x40 → k.effects = [.result bs] →
        Tab.get? s.invs i = some x → x.consume = false → x.failStatus = none → x.failures = 0 →
        Tab.get? s.results (x.handle % 65536) = some r → ∃ u, exec (.releaseComplete t) s = .next u ∧
          u = { s with tasks := [], gens := u.gens, stu := u.stu, invs := Tab.erase s.invs i, results := u.results,
                       slices := u.slices, decided := s.decided ++ [answer x.h sOk x.handle k.endStatus []] } ∧
          Tab.get? u.results (x.handle % 65536) = some { r with
            ready := true, bytes := recordBytes 1 k.endStatus x.handOuts (x.results ++ bs) [] s.datum 0 false })) ∧
    (∀ w ∈ s.writes, w.task = some t → k.phase = .releasing → s.turns = [] → (∀ e ∈ s.slices, e.2.state ≠ .destroying) →
      exec (.releaseComplete t) s = .next s))

/-- R355 to R359, R414, R415, R418, R420: Program Load and Pattern Set Load judge their images, put them under the
lowest free number and charge their memory; a program slot in use closes and an unused one is freed, a set is removed,
but not while a Scan uses it, and a set that is loaded into a filter's memory is there from then on. Where the spec
leaves a choice it follows assumptions 61 and 94. -/
def Obligations.ProgramsAndPatternSets : Prop :=
  ∀ (h : Sub) (d : Cdw) (data : List Byte) (s : State),
    let sl := actSlice s h
    let n := d.d10.toNat
    let b := fit n data
    let no := fun st : Status => completeAt h st 0 0 [] 0 0 s
    let rest := d.d12 = 0 ∧ d.d13 = 0 ∧ d.d14 = 0 ∧ d.d15 = 0
    let done := fun (x : Nat) (u : State) => { u with decided := u.decided ++ [answer h sOk x 0 []] }
    (∀ i, n % 4 = 0 → 132 ≤ n → n ≤ 33554432 → d.d11 = 0 → rest → Tab.lowestFree s.progs 0 1024 = some i →
      slotsHeld s sl < slotShare s sl → dramRoom s sl (mibOf (imgCode b + imgData b)) = true →
      exec (.programLoad h d data) s = .next (if imageValid b = true then done i
        (charge sl (mibOf (imgCode b + imgData b)) { s with progs := Tab.set s.progs i (slotFrom sl b) })
        else no (sVendor 0x8D))) ∧
    (n % 4 ≠ 0 ∨ n < 132 ∨ 33554432 < n → exec (.programLoad h d data) s = .next (no sField)) ∧
    (n % 4 = 0 → 132 ≤ n → n ≤ 33554432 → d.d11 = 0 → rest → Tab.lowestFree s.progs 0 1024 = none →
      exec (.programLoad h d data) s = .next (no (if imageValid b = true then sVendor 0x87 else sVendor 0x8D))) ∧
    (∀ g, n < 1024 → Tab.get? s.progs n = some g → g.slice = sl → g.closing = false →
      ((∃ p ∈ s.tasks, p.2.slot = n) → exec (.programUnload h d) s =
        .next (done 0 { s with progs := Tab.set s.progs n { g with closing := true } })) ∧
      ((∀ p ∈ s.tasks, p.2.slot ≠ n) → s.waitingInvokes = [] → exec (.programUnload h d) s =
        .next (done 0 (credit sl (mibOf (g.code.length + g.data.length)) { s with progs := Tab.erase s.progs n })))) ∧
    (∀ g, n < 1024 → Tab.get? s.progs n = some g → g.slice ≠ sl →
      exec (.programUnload h d) s = .next (no sField)) ∧
    (Tab.get? s.progs n = none → exec (.programUnload h d) s = .next (no sField)) ∧
    (∀ i, d.d11 = 0xFFFF#32 → rest → n % 4 = 0 → 336 ≤ n → n ≤ 1048640 → setsHeld s sl < 16 →
      Tab.lowestFree s.sets 0 1024 = some i → dramRoom s sl (mibOf (psLen b)) = true →
      exec (.patternSetLoad h d data) s = .next (if setValid b = true then done i (charge sl (mibOf (psLen b))
        { s with sets := Tab.set s.sets i { slice := sl, image := b, mib := mibOf (psLen b) } })
        else no (sVendor 0x8D))) ∧
    (∀ i p, d.d11 = BitVec.ofNat 32 (65536 + i) → i < 1024 → rest → n = 0 → Tab.get? s.sets i = some p →
      p.slice = sl → s.oldSets = [] → setInUse s p.image = false → exec (.patternSetRemove h d) s =
        .next (done i (credit sl p.mib { s with sets := Tab.erase s.sets i }))) ∧
    (∀ i p, d.d11 = BitVec.ofNat 32 (65536 + i) → i < 1024 → rest → n = 0 → Tab.get? s.sets i = some p →
      p.slice = sl → s.oldSets = [] → setInUse s p.image = true → exec (.patternSetRemove h d) s =
        .next (done i { s with sets := Tab.erase s.sets i, oldSets := [(i, p)] })) ∧
    (∀ i, d.d11 = BitVec.ofNat 32 (65536 + i) → i < 1024 → rest → Tab.get? s.sets i = none →
      exec (.patternSetRemove h d) s = .next (no sField)) ∧
    (∀ unit set p, unit < 40 → Tab.get? s.sets set = some p → s.oldSets = [] →
      (resident s unit p.image = false → setBytes p.image ≤ 1048576 →
        ∃ t rest, exec (.filterSetLoad unit set) s = .next t ∧ t = { s with filters := t.filters } ∧
          Tab.get? t.filters unit = some (p.image :: rest) ∧
          (∀ j, j ≠ unit → Tab.get? t.filters j = Tab.get? s.filters j) ∧
          ((p.image :: rest).map setBytes).sum ≤ 1048576) ∧
      (resident s unit p.image = true → exec (.filterSetLoad unit set) s = .next s))

/-- R360 to R366, R370, R372, R373, R375: an Invoke that passes its tests creates the root task of its program with its
parameters, holds its result record and does not complete yet; the first test that fails gives its status. The services
stage results, hand-outs and LBA output for release, and return their status in w1. Where the spec leaves a choice it
follows assumptions 10, 61, 89 and 90. -/
def Obligations.InvokesAndServices : Prop :=
  (∀ (h : Sub) (d : Cdw) (data : List Byte) (s : State),
    let sl := actSlice s h
    let n := d.d10.toNat
    let b := fit n data
    let p := readBlock128 b
    let rest := d.d11 = 0 ∧ d.d12 = 0 ∧ d.d13 = 0 ∧ d.d14 = 0 ∧ d.d15 = 0
    let no := fun st : Status => completeAt h st 0 0 [] 0 0 s
    (rest → n < 64 → exec (.invoke h d data) s = .next (no sField)) ∧
    (forerunner s sl = false → rest → 128 ≤ n → blockOk false b p = false →
      exec (.invoke h d data) s = .next (no sField)) ∧
    (∀ st, forerunner s sl = false → rest → 128 ≤ n → blockOk false b p = true →
      invokeRefusal s h sl p (n - 128) = some st → exec (.invoke h d data) s = .next (no st)) ∧
    (p.slot < 1024 → Tab.get? s.progs p.slot = none → invokeRefusal s h sl p (n - 128) = some (sVendor 0x8D)) ∧
    (∀ g, forerunner s sl = false → rest → 128 ≤ n → blockOk false b p = true → p.slot < 1024 → p.flowed = false →
      p.inKind < 2 → invokeRefusal s h sl p (n - 128) = none → Tab.get? s.progs p.slot = some g →
      s.waitingInvokes = [] → taskAvailable s sl = true → ∃ u i hd k v, exec (.invoke h d data) s = .next u ∧
        u = { s with results := u.results, drawn := s.drawn + 2, slices := u.slices, invs := Tab.set s.invs (hd % 65536) v,
                     tasks := Tab.set s.tasks i k } ∧
        v.h = h ∧ v.slice = sl ∧ v.slot = p.slot ∧ v.resMax = p.resMax ∧ v.inLen = p.inLen ∧ v.handle = hd ∧
        (Tab.get? u.results (hd % 65536)).map (·.ready) = some false ∧
        k.slice = sl ∧ k.slot = p.slot ∧ k.root = true ∧ k.inv = some (hd % 65536) ∧ k.fw = false ∧
        k.steps = BitVec.ofNat 32 p.budget ∧ k.mask = BitVec.ofNat 32 p.mask ∧ k.pc = BitVec.ofNat 32 g.entry ∧
        k.region = idlestRegion s ∧ k.regs = startRegs
          ([inputAddr p, BitVec.ofNat 32 p.inLen] ++ p.args ++ [BitVec.ofNat 32 p.resMax]) ∧
        k.phase = if p.mask % 2 ^ 32 = 0 then .ready else .waiting)) ∧
  ∀ (s : State) (c : CoreId) (v : View),
    let k := v.task
    let returns := fun (i : Instr) (st : Nat) (es : List HeldEffect) => ∃ u k', exec i s = .next u ∧
      OnlyTask s u v ∧ taskOf u v.t = some k' ∧ k' = { k with
        regs := k.regs.set 1 (BitVec.ofNat 32 st), pc := v.core.tpc + 4, effects := k.effects ++ es, steps := k'.steps,
        exhausted := k'.exhausted } ∧ (coreOf u v.c).trapped = false ∧ (coreOf u v.c).run = v.core.run
    (∀ i x, inService s c 1 = some v → k.inv = some i → Tab.get? s.invs i = some x →
      let n := (k.regs[2]).toNat
      (resultTotal s i x + n ≤ x.resMax → rangeOk s v.t k (k.regs[1]).toNat n false = true →
        rangeLost s v.t k (k.regs[1]).toNat n = false →
        returns (.svcResult c) 0 [.result (peekBytes s v.t k (k.regs[1]).toNat n)]) ∧
      (x.resMax < resultTotal s i x + n → returns (.svcResult c) 0x07 [])) ∧
    (∀ x q, inService s c 2 = some v → invOf s k = some x →
      let a := (k.regs[1]).toNat
      (x.outKind = 1 → (a, q) ∈ k.holding → 1 ≤ q →
        (accountOf s k.slice).length + stagedHandOuts s k.slice < 4096 → returns (.svcOutbuf c) 0 [.handOut a]) ∧
      ((∀ e ∈ k.holding, e.1 ≠ a) → returns (.svcOutbuf c) 0x02 []) ∧
      (x.outKind ≠ 1 → (a, q) ∈ k.holding → 1 ≤ q → returns (.svcOutbuf c) 0x07 [])) ∧
    (∀ x ns, inService s c 3 = some v → invOf s k = some x → nsOf s x.outNsid = some ns → x.outKind = 2 →
      let first := (k.regs[2]).toNat
      let n := (k.regs[3]).toNat
      let len := n * blockBytes ns
      (0 < n → first + n ≤ x.outNlb + 1 → len ≤ 4194304 → rangeOk s v.t k (k.regs[1]).toNat len false = true →
        rangeLost s v.t k (k.regs[1]).toNat len = false →
        returns (.svcLbaout c) 0 [.lbaOut first n (peekBytes s v.t k (k.regs[1]).toNat len)]) ∧
      (x.outNlb + 1 < first + n → returns (.svcLbaout c) 0x07 []))

/-- R374 to R387, R419: a read of a GO port starts an operation under the lowest free ticket, which it returns, or
returns a status with bit 31 set; a STAT port reads the ticket's state and frees it once it is done or failed; an
operation that completes with agreeing lanes writes its destination, sets its ticket's state and delivers its flag. A
Scan that passes its tests joins the scans in progress; each unit's filter adds its glints or marks the unit failed,
and after the last one the Scan completes with its result record; Result Read returns part of a record that is ready
and frees it when asked. Where the spec leaves a choice it follows assumptions 27, 91, 92 and 95. -/
def Obligations.EnginesAndScans : Prop :=
  ((∀ (s : State) (c : CoreId) (v : View) (r : Reg), Issues s c Guard.always v → v.task.storeError = none →
    let k := v.task
    let q := k.ports
    let next := viewPc v + 4
    let starts := fun (i : Instr) (n t : Nat) (x : Ticket) => Retires i c s
      { v with task := { k with tickets := Tab.set k.tickets t { x with state := .busy, block := v.c / 8 } } } next
      (setAt v r (BitVec.ofNat 32 n)) (rdp v)
    let refused := fun (i : Instr) (st : Nat) => RetiresWith i c s v r (BitVec.ofNat 32 (2 ^ 31 + st))
    (∀ i, i < 4 → (ticketOf k i).state = .idle → (∀ j, j < i → (ticketOf k j).state ≠ .idle) →
      q.dmaCtl.toNat / 2 ^ 30 = 0 → 0 < q.dmaLen.toNat → q.dmaLen.toNat ≤ 16777216 →
      rangeOk s v.t k q.dmaSrc.toNat q.dmaLen.toNat false = true →
      rangeOk s v.t k q.dmaDst.toNat q.dmaLen.toNat true = true →
      starts (.dmaGoRead c r) i i
        { flag := q.dmaCtl.toNat % 32, src := q.dmaSrc.toNat, dst := q.dmaDst.toNat, len := q.dmaLen.toNat }) ∧
    (q.dmaLen = 0 → refused (.dmaGoRead c r) 0x07) ∧
    (q.dmaCtl.toNat / 2 ^ 30 = 1 → 0 < q.dmaLen.toNat → q.dmaLen.toNat ≤ 16777216 → lbaInput s k = none →
      refused (.dmaGoRead c r) 0x15) ∧
    (q.dmaCtl.toNat / 2 ^ 30 = 0 → 0 < q.dmaLen.toNat → q.dmaLen.toNat ≤ 16777216 →
      rangeOk s v.t k q.dmaSrc.toNat q.dmaLen.toNat false = true →
      rangeOk s v.t k q.dmaDst.toNat q.dmaLen.toNat true = true → (∀ j, j < 4 → (ticketOf k j).state ≠ .idle) →
      refused (.dmaGoRead c r) 0x10) ∧
    (∀ i, i < 2 → (ticketOf k (4 + i)).state = .idle → (∀ j, j < i → (ticketOf k (4 + j)).state ≠ .idle) →
      let op := q.cpCtl.toNat / 2 ^ 28
      let level := q.cpCtl.toNat / 2 ^ 24 % 16
      op < 4 → (op % 2 = 0 → 1 ≤ level ∧ level ≤ 9) → 1 ≤ q.cpSrcLen.toNat → q.cpSrcLen.toNat ≤ 16777216 →
      1 ≤ q.cpDstLen.toNat → q.cpDstLen.toNat ≤ 16777216 →
      rangeOk s v.t k q.cpSrc.toNat q.cpSrcLen.toNat false = true →
      rangeOk s v.t k q.cpDst.toNat q.cpDstLen.toNat true = true →
      starts (.cpGoRead c r) i (4 + i)
        { flag := q.cpCtl.toNat % 32, src := q.cpSrc.toNat, dst := q.cpDst.toNat, len := q.cpSrcLen.toNat,
          room := q.cpDstLen.toNat, op := op, level := level }) ∧
    (4 ≤ q.cpCtl.toNat / 2 ^ 28 → refused (.cpGoRead c r) 0x07) ∧
    (∀ x n p, (ticketOf k 6).state = .idle → lbaInput s k = some (x, n) → q.fsNblk.toNat ≠ 0 →
      q.fsDstLen.toNat % 16 = 0 → q.fsOff.toNat + q.fsNblk.toNat ≤ ceilDiv x.inLen (blockBytes n) →
      setFor s k.slice (q.fsPset.toNat % 65536) = some p →
      rangeOk s v.t k q.fsDst.toNat q.fsDstLen.toNat true = true →
      starts (.fsGoRead c r) 0 6
        { flag := q.fsCtl.toNat % 32, src := q.fsOff.toNat, dst := q.fsDst.toNat, len := q.fsNblk.toNat,
          room := q.fsDstLen.toNat, image := p.image }) ∧
    (q.fsNblk = 0 → refused (.fsGoRead c r) 0x07) ∧
    (∀ n : Nat, n < 4 →
      let x := ticketOf k n
      let port := BitVec.ofNat 12 (0x208 + n)
      (x.state = .idle → RetiresWith (.engineStatRead c r port) c s v r 0) ∧
      (x.state = .busy → x.discard = false → RetiresWith (.engineStatRead c r port) c s v r 0x40000000#32) ∧
      (x.state = .done → Retires (.engineStatRead c r port) c s
        { v with task := { k with tickets := Tab.set k.tickets n { x with state := .idle, status := 0 } } } next
        (setAt v r (BitVec.ofNat 32 (2 * 2 ^ 30 + x.status % 256))) (rdp v)) ∧
      (x.state = .failed → Retires (.engineStatRead c r port) c s
        { v with task := { k with tickets := Tab.set k.tickets n { x with state := .idle, status := 0 } } } next
        (setAt v r (BitVec.ofNat 32 (3 * 2 ^ 30 + x.status % 256))) (rdp v)))) ∧
  ∀ (s : State) (t i : Nat) (k : Task), taskOf s t = some k →
    let x := ticketOf k i
    (i < 4 → x.state = .busy → x.discard = false → x.lba = false → rangeLost s t k x.src x.len = false →
      let w := pokeBytes t k x.dst (peekBytes s t k x.src x.len) s
      w.2 = false → exec (.dmaComplete t i .agree) s = .next (finishTicket t i 0 0 w.1)) ∧
    (i < 4 → x.state = .busy → x.discard = true → exec (.dmaComplete t i .agree) s =
      .next (setTask s t { k with tickets := Tab.set k.tickets i {} })) ∧
    (i < 4 → x.state ≠ .busy → exec (.dmaComplete t i .agree) s = .next s) ∧
    (∀ j, j < 2 → i = 4 + j → x.state = .busy → x.discard = false → x.op % 2 = 0 →
      rangeLost s t k x.src x.len = false →
      let out := Config.compressed x.op x.level (peekBytes s t k x.src x.len)
      let ends := fun (st n : Nat) (w : State × Bool) => if w.2 = true then endTask t 0x83 w.1 else finishTicket t i st n w.1
      ∃ u, exec (.compressionComplete t j .agree) s = .next u ∧
        (out.length ≤ x.room → u = ends 0 out.length (pokeBytes t k x.dst out s)) ∧
        (x.room < out.length → ∃ bs n, bs.length = x.room ∧ n ≤ x.room ∧
          u = ends 0x11 n (pokeBytes t k x.dst bs (drew (x.room + 1) s)))) ∧
    (∀ j, j < 2 → i = 4 + j → x.state = .busy → x.discard = true → exec (.compressionComplete t j .agree) s =
      .next (setTask s t { k with tickets := Tab.set k.tickets i {} })) ∧
    (∀ v n (engine : Fin 32), i = 6 → x.state = .busy → x.discard = false → lbaInput s k = some (v, n) → s.oldSets = [] →
      rangeWaits s n (v.inSlba + x.src) x.len = false → x.room = 0 →
      filtersReady s x.image v.inNsid n (unitsTouched n (v.inSlba + x.src) x.len) = true →
      (∀ u ∈ unitsTouched n (v.inSlba + x.src) x.len, unitBad s v.inNsid n u (v.inSlba + x.src) x.len = false) →
      ∃ u k', exec (.filterScanComplete t engine .agree) s = .next u ∧ u = { s with tasks := u.tasks, smart := u.smart } ∧
        taskOf u t = some k' ∧ (ticketOf k' 6).state = .done ∧ (ticketOf k' 6).status = 0 ∧ k'.ports.fsFail = 0 ∧
        k'.ports.fsCount = min (2 ^ 32 - 1) (filterUnits s v.inNsid n x.image (v.inSlba + x.src) x.len []
          (unitsTouched n (v.inSlba + x.src) x.len)).1.length ∧
        k'.flags = k.flags ||| (1#32 <<< (x.flag % 32)) ∧ ∀ j, j ≠ t → taskOf u j = taskOf s j) ∧
    (∀ w u k', taskOf w t = some k' → finishTicket t i 0 0 w = u → ∃ k'', taskOf u t = some k'' ∧
      (ticketOf k'' i).state = .done ∧ k''.flags = k'.flags ||| (1#32 <<< ((ticketOf k' i).flag % 32)) ∧
      k''.delivered = k'.delivered ||| (1#32 <<< ((ticketOf k' i).flag % 32)) ∧ u = { w with tasks := u.tasks })) ∧
  (∀ (h : Sub) (d : Cdw) (s : State),
    let no := fun st : Status => completeAt h st 0 0 [] 0 0 s
    let sl := actSlice s h
    (∀ nsid data n, let b := fit 64 data
      let slba := field b 0 8
      let nblk := field b 8 8
      (scanFieldsOk s sl d b = false → exec (.scan h nsid d data) s = .next (no sField)) ∧
      (scanFieldsOk s sl d b = true → bit (field b 20 4) 0 = false →
        (nsOfSlice s h sl nsid = none → exec (.scan h nsid d data) s = .next (no sNamespace)) ∧
        (nsOfSlice s h sl nsid = some n → n.nsze < slba + nblk → exec (.scan h nsid d data) s = .next (no sLba)) ∧
        (nsOfSlice s h sl nsid = some n → slba + nblk ≤ n.nsze → recordRoom s sl (mibOf (field b 24 4)) = true →
          s.waitingInvokes = [] → taskAvailable s sl = true → ∃ u q, exec (.scan h nsid d data) s = .next u ∧
            u = { s with scans := s.scans ++ [q], results := u.results, drawn := s.drawn + 1, slices := u.slices } ∧
            q.h = h ∧ q.slice = sl ∧ q.nsid = nsid ∧ q.slba = slba ∧ q.nblk = nblk ∧
            q.left = unitsTouched n slba nblk ∧ q.failed = [] ∧ q.glints = [] ∧ q.flow = none ∧
            q.resMax = field b 24 4 ∧ (Tab.get? u.results (q.handle % 65536)).map (·.ready) = some false))) ∧
    (∀ q n u us, s.scans = [q] → q.h = h → nsOf s q.nsid = some n → q.left = u :: us → q.flow = none →
      rangeWaits s n (unitPart n u q.slba q.nblk).1 (unitPart n u q.slba q.nblk).2 = false → filterReady s q.image q.nsid n (!q.tail.isEmpty) u = true →
      let r := filterUnit s q.nsid n q.image q.tail q.slba q.nblk u
      let q' := { q with left := us, failed := if r.2.1 = true then q.failed ++ [u] else q.failed,
                         glints := q.glints ++ r.1, tail := r.2.2 }
      (us ≠ [] → ∃ t, exec (.scanUnitFilter h) s = .next t ∧
        t = { s with scans := [q'], filters := t.filters, smart := t.smart }) ∧
      (∀ e, us = [] → s.tasks = [] → s.waitingInvokes = [] → s.oldSets = [] →
        Tab.get? s.results (q.handle % 65536) = some e → ∃ t, exec (.scanUnitFilter h) s = .next t ∧ t.scans = [] ∧
        Decides s t (answer h (if q'.failed = [] then sOk else sVendor 0x88) q.handle
          (min (2 ^ 32 - 1) q'.glints.length) []) ∧
        Tab.get? t.results (q.handle % 65536) = some { e with ready := true, bytes := scanRecord s q' n })) ∧
    (∀ q n u us, s.scans = [q] → q.h = h → nsOf s q.nsid = some n → q.left = u :: us → filterReady s q.image q.nsid n (!q.tail.isEmpty) u = false →
      exec (.scanUnitFilter h) s = .next s) ∧
    (s.scans = [] → exec (.scanUnitFilter h) s = .next s) ∧
    (let i := d.d10.toNat % 65536
     let off := d.d11.toNat
     let len := d.d12.toNat
     off % 4 = 0 → len % 4 = 0 → ∀ r, Tab.get? s.results i = some r → r.gen = d.d10.toNat / 65536 → r.slice = sl →
     let u := { s with decided := s.decided ++ [answer h sOk r.bytes.length 0 (fit len (r.bytes.drop off))] }
     (r.ready = true → d.d13 = 0 → exec (.resultRead h d) s = .next u) ∧
     (r.ready = true → d.d13 = 1 → exec (.resultRead h d) s = .next (credit r.slice r.mib { u with
       results := Tab.erase s.results i, resultGens := Tab.set s.resultGens i ((r.gen + 1) % 65536) })) ∧
     (r.ready = false → exec (.resultRead h d) s = .next (no sField))) ∧
    (Tab.get? s.results (d.d10.toNat % 65536) = none → exec (.resultRead h d) s = .next (no sField)))

/-- R388 to R397, R399 to R402, R406 to R409, R411: Key Array Configure creates, clears and destroys tables within
their slice's units; inserts and deletes change their table; a shift of the block mover and the background rebalance
keep the entries and their order; a bank's sweep rewrites every corrupted row and records it. A lookup finds a matching
entry exactly when there is one, the first in chain order; a winner that differs from its shadow is rewritten and
recorded as masked, and the lookup repeats; a batch's results go to the host in order. A program's KA_LOOK returns the
same, and its changes are staged until release. Where the spec leaves a choice it follows assumptions 61 and 88. -/
def Obligations.KeyArrays : Prop :=
  (∀ (h : Sub) (d : Cdw) (data : List Byte) (s : State),
    let sl := actSlice s h
    let b := fit 64 data
    let no := fun st : Status => completeAt h st 0 0 [] 0 0 s
    let ok := fun (x : Nat) (u : State) => { u with decided := u.decided ++ [answer h sOk x 0 []] }
    let w := field b 1 1
    let units := field b 4 2 * w * (if bit (field b 6 1) 1 = true then 2 else 1)
    (∀ n gs, d = {} → field b 0 1 = 1 → createValid s b = true → freeTableNo s = some n →
      (sliceOf s sl).kaUsed + units ≤ kaAllot s sl →
      placeSegments s w (bit (field b 6 1) 0) (bit (field b 6 1) 1) (field b 7 1) (field b 4 2) 0 (takenPlaces s) = some gs →
      let t : KeyTable := { slice := sl, width := w, segs := gs, mirror := bit (field b 6 1) 1 }
      gs.length = field b 4 2 ∧ exec (.keyTableCreate h d data) s = .next (ok n (modSlice sl
        (fun x => { x with kaUsed := x.kaUsed + units }) (drew 1 { s with tables := Tab.set s.tables n t })))) ∧
    (∀ n, d = {} → field b 0 1 = 1 → createValid s b = true → freeTableNo s = some n →
      kaAllot s sl < (sliceOf s sl).kaUsed + units →
      exec (.keyTableCreate h d data) s = .next (no (sVendor 0x87))) ∧
    (d = {} → field b 0 1 = 1 → createValid s b = false → exec (.keyTableCreate h d data) s = .next (no sField)) ∧
    (∀ t, d = {} → tableOpValid b = true → Tab.get? s.tables (field b 2 2) = some t → t.slice = sl → t.jobs = [] →
      (field b 0 1 = 2 → exec (.keyTableDestroy h d data) s = .next (ok 0 (modSlice sl
        (fun x => { x with kaUsed := x.kaUsed - tableUnits t })
        { s with tables := Tab.erase s.tables (field b 2 2),
                 tasks := s.tasks.map fun k => (k.1, unstage (field b 2 2) k.2) }))) ∧
      (field b 0 1 = 3 → exec (.keyTableClear h d data) s = .next (ok 0
        { s with tables := Tab.set s.tables (field b 2 2) (written 0 (tableCap t) { t with entries := [], move := none }) }))) ∧
    (∀ t, d = {} → tableOpValid b = true → Tab.get? s.tables (field b 2 2) = some t → t.slice ≠ sl →
      (field b 0 1 = 2 → exec (.keyTableDestroy h d data) s = .next (no sField)) ∧
      (field b 0 1 = 3 → exec (.keyTableClear h d data) s = .next (no sField))) ∧
    (∀ n t i, let z := d.d11 = 0 ∧ d.d12 = 0 ∧ d.d13 = 0 ∧ d.d14 = 0 ∧ d.d15 = 0
      z → t.jobs = [] → t.move = none →
      (batchTable s sl d data (fun w => 40 * w + 16) = some (n, t) → batchItems data (40 * t.width + 16) = [i] →
        itemValid t.width i = true →
        let e := itemEntry t.width i
        (∀ t', insertEntry s t e = .placed t' → t'.jobs = [] → t'.move = none → exec (.keyInsert h d data) s =
          .next (ok 1 { s with tables := Tab.set s.tables n t' })) ∧
        (insertEntry s t e = .full → exec (.keyInsert h d data) s = .next
          (completeAt h (sVendor 0x8B) 0 0 [] 0 0 { s with tables := Tab.set s.tables n t }))) ∧
      (batchTable s sl d data (fun w => 40 * w + 8) = some (n, t) → batchItems data (40 * t.width + 8) = [i] →
        itemValid t.width i = true →
        let e := deleteEntry t (itemEntry t.width i)
        exec (.keyDelete h d data) s = .next { s with
          tables := Tab.set s.tables n e.2
          decided := s.decided ++ [if e.1 = true then answer h sOk 1 0 [] else answer h sOk 0 1 []] })) ∧
    (batchTable s sl d data (fun w => 40 * w + 16) = none → exec (.keyInsert h d data) s = .next (no sField)) ∧
    (batchTable s sl d data (fun w => 40 * w + 8) = none → exec (.keyDelete h d data) s = .next (no sField)) ∧
    (∀ n t m, Tab.get? s.tables n = some t → t.move = some m → t.jobs = [] →
      exec (.moverShift n) s = .next { s with tables := Tab.set s.tables n (shiftIn t m) } ∧
      Tab.get? (shiftIn t m).entries (if m.place ≤ m.hole then m.place else m.place - 1) = some m.entry) ∧
    (∀ n t, Tab.get? s.tables n = some t → t.move = none → exec (.moverShift n) s = .next s) ∧
    (∀ n t, Tab.get? s.tables n = some t → t.move = none → runFull t = true → tableMissing s t = false →
      16 * t.entries.length ≤ 15 * tableCap t →
      let t' := written 0 (tableCap t) { t with entries := spread (t.entries.map (·.2)) }
      exec (.holeRebalance n) s = .next { s with tables := Tab.set s.tables n t' } ∧
      t'.entries.map (·.2) = t.entries.map (·.2) ∧ runFull t' = false) ∧
    (∀ (bank : Fin 32), bankPresent s bank.val = false → exec (.bankShadowSweep bank []) s = .next s) ∧
    (∀ (bank : Fin 32) n t, s.tables = [(n, t)] → t.jobs = [] → t.upset = [] → t.shadowBad = [] →
      exec (.bankShadowSweep bank []) s = .next s ∧
      ∀ u : KeyUpset, bankPresent s bank.val = true → u.table = n → inBank bank.val t u.pos = true →
        (t.entries.map (·.1)).count u.pos = 1 →
        exec (.bankShadowSweep bank [u]) s = .next (recordDetected (rowEntry n u.pos t) s)) ∧
    ∀ (bank : Fin 32) ups, bankPresent s bank.val = true → (∀ n t, Tab.get? s.tables n = some t → t.jobs = []) →
      ∃ v, exec (.bankShadowSweep bank ups) s = .next v ∧ ∀ n t, Tab.get? s.tables n = some t →
        ∃ t', Tab.get? v.tables n = some t' ∧ t'.entries = t.entries ∧ t'.segs = t.segs ∧
          ∀ e ∈ t'.entries, inBank bank.val t' e.1 = true → rowBad t' e.1 = false) ∧
  ((∀ (h : Sub) (d : Cdw) (data : List Byte) (s : State) n t,
    batchTable s (actSlice s h) d data (fun w => 20 * w) = some (n, t) → d.d11 = 0 → d.d15 = 0 →
    d.d12.toNat % 16 = 0 → 16 * field data 2 2 ≤ d.d14.toNat → t.upset = [] → t.shadowBad = [] →
    (∀ (u : KeyUpset) k, batchItems data (20 * t.width) = [k] → u.table = n → Tab.has t.entries u.pos = true →
      let t1 := { t with upset := [(u.pos, (u.value, u.mask))] }
      let f1 := search s t1 (ofLe k) none
      f1.hit = true → f1.index = u.pos →
      let s1 := recordMasked (rowEntry n u.pos t) { s with tables := Tab.set s.tables n t }
      let f := search s1 t (ofLe k) none
      exec (.keyLookup h d data [(0, false, u)]) s =
        .next (completeAt h sOk (if f.hit = true then 1 else 0) 0 (foundBytes f) 0 0 s1)) ∧
    let fs := (batchItems data (20 * t.width)).map fun k => search s t (ofLe k) none
    exec (.keyLookup h d data []) s = .next { s with
      decided := s.decided ++ [answer h sOk (fs.filter (·.hit)).length 0 (fs.flatMap foundBytes)] }) ∧
  (∀ (h : Sub) (d : Cdw) (data : List Byte) (s : State) ups,
    batchTable s (actSlice s h) d data (fun w => 20 * w) = none →
    exec (.keyLookup h d data ups) s = .next (completeAt h sField 0 0 [] 0 0 s)) ∧
  (∀ (s : State) (t : KeyTable) (key : Nat), (∀ g ∈ t.segs, segPresent s t g = true) →
    (∀ e ∈ t.entries, segOf e.1 < t.segs.length) → t.upset = [] →
    let f := search s t key none
    f.missing = false ∧ (f.hit = true ↔ ∃ e ∈ t.entries, entryMatches key e.2 = true) ∧
    (f.hit = true → ∃ e ∈ t.entries, entryMatches key e.2 = true ∧ f.index = e.1 ∧ f.prio = e.2.prio ∧ f.dat = e.2.dat ∧
      (t.entries.Pairwise (fun a b => a.1 < b.1) → ∀ e' ∈ t.entries, entryMatches key e'.2 = true → e.1 ≤ e'.1))) ∧
  (∀ (s : State) (t t' : KeyTable) (e : KeyEntry), insertEntry s t e = .placed t' →
    ∃ p, Tab.get? t'.entries p = some e ∨ ∃ x, sameKey x e = true ∧ Tab.get? t'.entries p = some { x with dat := e.dat }) ∧
  ∀ (s : State) (c : CoreId) (v : View) (r : Reg), Issues s c Guard.always v → v.task.storeError = none →
    let k := v.task
    let next := viewPc v + 4
    (∀ n t, kaTableOf v s = some (n, t) → t.upset = [] → t.shadowBad = [] →
      let f := search s t (portKey k.ports.kaKey t.width) none
      let q := { k.ports with kaRdlo := BitVec.ofNat 32 f.dat, kaRdhi := BitVec.ofNat 32 (f.dat / 2 ^ 32),
                              kaRidx := BitVec.ofNat 32 f.index }
      Retires (.kaLookRead c r []) c s { v with task := { k with ports := q } } next (setAt v r (BitVec.ofNat 32
        (flagBit f.hit 31 + flagBit f.mhit 30 + flagBit f.missing 29 + f.count * 2 ^ 24 + f.prio % 65536))) (rdp v)) ∧
    (kaTableOf v s = none → RetiresWith (.kaLookRead c r []) c s v r 0x10000001#32 ∧
      RetiresWith (.kaInsertRead c r) c s v r 1 ∧ RetiresWith (.kaDeleteRead c r) c s v r 1) ∧
    (∀ n t, kaTableOf v s = some (n, t) → viewFw v = false → k.keyOps < 256 →
      let e := portEntry k t.width
      Retires (.kaInsertRead c r) c s { v with task := { k with
        keyOps := k.keyOps + 1, effects := k.effects ++ [.keyInsert n e.value e.mask e.prio e.dat] } } next
        (setAt v r 0) (rdp v) ∧
      Retires (.kaDeleteRead c r) c s { v with task := { k with
        keyOps := k.keyOps + 1, effects := k.effects ++ [.keyDelete n e.value e.mask e.prio] } } next
        (setAt v r 0) (rdp v)) ∧
    (∀ n t, kaTableOf v s = some (n, t) → viewFw v = false → 256 ≤ k.keyOps →
      RetiresWith (.kaInsertRead c r) c s v r 6 ∧ RetiresWith (.kaDeleteRead c r) c s v r 6))

/-- R422 to R440, R443, R445, R447, R448: the commands of the digest port take, finish, free, save and restore the
task's context and set ERR; data words are collected into blocks, which an engine absorbs in their order of arrival,
and a lane mismatch that the repeat cleared is a masked fault; a final result is read from DG_RESULT once READY is set,
or goes to a key slot. Host Digest works in one command or in a session, whose context may be saved and taken again;
what becomes durable completes what waits for it; the key store's commands generate and erase keys. Where the spec
leaves a choice it follows assumptions 10, 21, 31, 84, 86 and 87. -/
def Obligations.DigestAndKeyStore : Prop :=
  ((∀ (s : State) (c : CoreId) (v : View) (alg : BitVec 4) (hmac tokey : Bool) (flag : BitVec 5), Issues s c Guard.always v →
    v.task.storeError = none → v.core.stores = [] → alg.toNat < 4 → v.task.phase = .running →
    let k := v.task
    let next := viewPc v + 4
    let p := { k.ports with dgAlg := alg.toNat, dgHmac := hmac, dgTokey := tokey, dgFlag := flag.toNat }
    let withPorts := fun q : PortRegs => { v with task := { k with ports := q } }
    let errs := fun (i : Instr) (e : Nat) => Retires i c s (withPorts { p with dgErr := e }) next (rd v) (rdp v)
    let share := ctxUsed s k.slice < ctxShare s k.slice
    (∀ key, (hmac = true → derivedOf s k.slice p.dgKeySlot = true) → k.ctx = none → freeContext s k.region = some key →
      share →
      let x := newContext v.t alg.toNat hmac p.dgKeySlot (startHash s alg.toNat hmac p.dgKeySlot) s.datum
      RetiresAfter (.dgOpen c alg hmac tokey flag) c s
        { s with contexts := Tab.set s.contexts key x, keys := (useKey hmac p.dgKeySlot alg.toNat s).keys }
        { v with task := { k with
          ctx := some (key / 8, key % 8), ports := { p with dgErr := 0, dgReady := false, dgLenErr := false, dgResult := [] } } }
        next (rd v) (rdp v)) ∧
    (∀ q, k.ctx = some q → errs (.dgOpen c alg hmac tokey flag) 0x07 ∧ errs (.dgRestore c alg hmac tokey flag) 0x07) ∧
    (hmac = true → k.ctx = none → (freeContext s k.region).isSome = true → derivedOf s k.slice p.dgKeySlot = false →
      errs (.dgOpen c alg hmac tokey flag) 0x1A) ∧
    (k.ctx = none → freeContext s k.region = none → Retires (.dgOpen c alg hmac tokey flag) c s
      (withPorts { p with dgErr := 0x10, dgBusyAll := true }) next (rd v) (rdp v)) ∧
    (∀ key x, ctxOf s k = some (key, x) → x.finishing = false →
      RetiresAfter (.dgFinal c alg hmac tokey flag) c s { s with contexts := Tab.set s.contexts key { x with
          finishing := true, finTokey := tokey, finDest := p.dgDest, finFlag := flag.toNat
          finEqual := if x.busy = true then none else some (decide (x.hash.count = p.dgLen)) } }
        (withPorts { p with dgErr := 0 }) next (rd v) (rdp v)) ∧
    (∀ q, k.ctx = some q → RetiresAfter (.dgClose c alg hmac tokey flag) c s
      { s with contexts := Tab.erase s.contexts (8 * q.1 + q.2) }
      { v with task := { k with ctx := none, ports := { p with dgErr := 0, dgReady := false, dgResult := [] } } }
      next (rd v) (rdp v)) ∧
    (k.ctx = none → errs (.dgFinal c alg hmac tokey flag) 0x07 ∧ errs (.dgClose c alg hmac tokey flag) 0x07 ∧
      errs (.dgSave c alg hmac tokey flag) 0x07) ∧
    (∀ key x, ctxOf s k = some (key, x) → x.finishing = false →
      ((settledHash x).buf ≠ [] → errs (.dgSave c alg hmac tokey flag) 0x1B) ∧
      ((settledHash x).buf = [] → rangeOk s v.t k p.dgCtx 320 true = true → ∃ u w,
        exec (.dgSave c alg hmac tokey flag) s = .next u ∧ running u c = some w ∧ viewPc w = next ∧ w.task.ctx = none ∧
        w.task.ports = { p with dgErr := 0 } ∧ Tab.get? u.contexts key = none ∧
        w.task.flags = k.flags ||| (1#32 <<< flag.toNat))) ∧
    (∀ key, k.ctx = none → rangeOk s v.t k p.dgCtx 320 false = true → rangeLost s v.t k p.dgCtx 320 = false →
      freeContext s k.region = some key → share →
      let im := peekBytes s v.t k p.dgCtx 320
      let x : HashState := { words := stateWords (field im 2 1) (slice im 64 200), count := field im 8 8 }
      let hm := decide (field im 3 1 = 1)
      imageOk im = true →
      (hm = true → derivedOf s k.slice (field im 4 1) = true ∧ (keyOf s (field im 4 1)).gen = field im 16 4) →
      RetiresAfter (.dgRestore c alg hmac tokey flag) c s
        { s with contexts := Tab.set s.contexts key (newContext v.t (field im 2 1) hm (field im 4 1) x s.datum)
                 keys := (useKey hm (field im 4 1) (field im 2 1) s).keys }
        { v with task := { k with
          ctx := some (key / 8, key % 8), ports := { p with dgErr := 0, dgReady := false, dgLenErr := false }
          flags := k.flags ||| (1#32 <<< flag.toNat), delivered := k.delivered ||| (1#32 <<< flag.toNat) } }
        next (rd v) (rdp v)) ∧
    (derivedOf s k.slice (p.dgDest % 256) = true → RetiresAfter (.dgEraseKey c alg hmac tokey flag) c s
      (eraseKey (p.dgDest % 256) s) (withPorts { p with dgErr := 0 }) next (rd v) (rdp v)) ∧
    (derivedOf s k.slice (p.dgDest % 256) = false → errs (.dgEraseKey c alg hmac tokey flag) 0x1A)) ∧
  (∀ (s : State) (c : CoreId) (v : View) (r : Reg), Issues s c Guard.always v → v.task.storeError = none →
    v.core.stores = [] →
    let k := v.task
    let next := viewPc v + 4
    (∀ key x, ctxOf s k = some (key, x) → x.finishing = false → x.busy = false → x.hash.count + 4 ≤ k.ports.dgLen →
      let buf := x.hash.buf ++ toLe 4 (rd v r).toNat
      RetiresAfter (.dgDataWrite c r) c s { s with contexts := Tab.set s.contexts key { x with
        hash := { x.hash with buf := buf, count := x.hash.count + 4 }, busy := decide (algBlock x.alg ≤ buf.length)
        used := s.datum } } v next (rd v) (rdp v)) ∧
    (∀ key x, ctxOf s k = some (key, x) → x.finishing = false → x.busy = true → Retires (.dgDataWrite c r) c s
      { v with task := { k with ports := { k.ports with dgOvr := true } } } next (rd v) (rdp v)) ∧
    (k.ctx = none → Retires (.dgDataWrite c r) c s v next (rd v) (rdp v)) ∧
    (∀ i : Fin 16, (k.ports.dgReady = true →
        RetiresWith (.dgResultRead c r i) c s v r (BitVec.ofNat 32 (ofLe (slice k.ports.dgResult (4 * i.val) 4)))) ∧
      (k.ports.dgReady = false → Retires (.dgResultRead c r i) c s
        { v with task := { k with ports := { k.ports with dgEarly := true } } } next (setAt v r 0) (rdp v)))) ∧
  ∀ (s : State) (r : RegionId) (i : Fin 8) (x : DigestCtx), Tab.get? s.contexts (8 * r.val + i.val) = some x →
    let key := 8 * r.val + i.val
    let y := { x with hash := settledHash x, busy := false, finEqual := none }
    (x.busy = true → arrivedBefore s r.val x = false → x.finishing = false → unitRetired s (digestSite r.val) = false →
      exec (.digestBlockAbsorbed r i .agree) s = .next { s with contexts := Tab.set s.contexts key y } ∧
      ((s.faults.lanes.all fun e => decide (e.1 ≠ digestSite r.val)) = true → ∃ u,
        exec (.digestBlockAbsorbed r i .repeatAgrees) s = .next u ∧ Tab.get? u.contexts key = some y ∧
        u.faults.ring.length = min 256 (s.faults.ring.length + 1) ∧
        (u.faults.ring.head?.map fun e => (e.cls, e.outcome, e.site)) = some (0x08, 0, digestSite r.val))) ∧
    (∀ lanes, x.busy = false → exec (.digestBlockAbsorbed r i lanes) s = .next s) ∧
    (∀ lanes, arrivedBefore s r.val x = true → exec (.digestBlockAbsorbed r i lanes) s = .next s) ∧
    ∀ t k, x.owner = .task t → taskOf s t = some k → x.finishing = true → x.busy = false →
      (x.hmac = true → derivedOf s k.slice x.keySlot = true) → k.ports.dgReady = false →
      let out := finishHash s x.alg x.hmac x.keySlot x.hash
      let ready := fun (res : List Byte) (len : Bool) => ∃ u k', exec (.digestFinalReady r i) s = .next u ∧
        u = { s with tasks := u.tasks } ∧ (∀ j, j ≠ t → taskOf u j = taskOf s j) ∧ taskOf u t = some k' ∧
        k'.ports = { k.ports with dgReady := true, dgResult := res, dgLenErr := k.ports.dgLenErr || len, dgErr := 0 } ∧
        k'.flags = k.flags ||| (1#32 <<< (x.finFlag % 32))
      (x.finEqual = some true → x.finTokey = false → ready out false) ∧
      (x.finEqual = some false → ready [] true) ∧
      (∀ j, x.finEqual = some true → x.finTokey = true → keyDest s k.slice (bit x.finDest 8) (x.finDest % 256) = .ok j →
        ∃ u, exec (.digestFinalReady r i) s = .next u ∧ (∀ m, m ≠ j → keyOf u m = keyOf s m) ∧
          keyOf u j = { typ := .derived, owner := k.slice, gen := (keyOf s j).gen + 1, bits := 8 * out.length, key := out,
                        stale := (keyOf s j).stale || decide ((keyOf s j).typ ≠ .free)
                        waitTask := some (t, x.finFlag) } ∧
          u = { s with keys := u.keys, contexts := u.contexts, tasks := u.tasks })) ∧
  ((∀ (h : Sub) (d : Cdw) (data : List Byte) (s : State),
    let sl := actSlice s h
    let alg := bits d.d11.toNat 23 20
    let key := bits d.d14.toNat 7 0
    let hmac := d.d11.getLsbD 19
    let tokey := d.d11.getLsbD 18
    let no := fun st : Status => completeAt h st 0 0 [] 0 0 s
    let ok := fun (x y : Nat) (u : State) => { u with decided := u.decided ++ [answer h sOk x y []] }
    let x := feedHash alg (startHash s alg hmac key) data
    let share := ctxUsed s sl < ctxShare s sl
    let use := fun u : State => useKey hmac key alg u
    (digestFields d data true false = true → digestSlots s sl hmac key tokey (destOf d) = true →
      (∀ k v, data.length = declaredOf d → s.sessions.length < 1024 → share → hostContext s 0 = some (k, v) →
        let out := finishHash s alg hmac key x
        (tokey = false → recordRoom s sl 1 = true → let hd := newHandle (use v)
          exec (.digestWhole h d data) s = .next (ok hd out.length (fillRecord hd
            (recordBytes 3 0 [] out [] s.datum 0 false) (charge sl 1 (reserveRecord hd sl 1 (use v)))))) ∧
        (∀ j, tokey = true → finalRoom s sl true (destOf d) = true →
          keyDest (use v) sl (d.d14.getLsbD 16) (bits d.d14.toNat 15 8) = .ok j →
          exec (.digestWhole h d data) s =
            .next (modKey j (fun q => { q with waitHost := some h }) (writeKey j .derived sl out (use v))))) ∧
      (data.length ≠ declaredOf d → exec (.digestWhole h d data) s = .next (no (sVendor 0x89))) ∧
      (∀ n k v, freeSession s = some n → share → hostContext s 0 = some (k, v) →
        let q : DigestSession := { h := h, slice := sl, alg := alg, hmac := hmac, tokey := tokey, declared := declaredOf d,
                                   keySlot := key, dest := destOf d, hash := x, region := k / 8, ctx := some k }
        exec (.digestStart h d data) s = .next (ok n x.count { v with
          sessions := Tab.set v.sessions n q, contexts := Tab.set v.contexts k (sessionCtx q n s.datum)
          keys := (use s).keys, drawn := s.drawn + 1 }))) ∧
    (digestFields d data true false = false ∨ digestSlots s sl hmac key tokey (destOf d) = false →
      exec (.digestWhole h d data) s = .next (no sField) ∧ exec (.digestStart h d data) s = .next (no sField)) ∧
    (∀ q k v, let n := bits d.d11.toNat 15 0
      digestFields d data false true = true → sessionFor s sl n = some q →
      (q.ctx = some k ∧ v = s ∨ q.ctx = none ∧ share ∧ hostContext s q.region = some (k, v)) →
      (q.hmac = true → derivedOf s sl q.keySlot = true) →
      (q.hash.count + data.length ≤ q.declared →
        let q' := { q with hash := feedHash q.alg q.hash data, region := k / 8, ctx := some k }
        exec (.digestContinue h d data) s = .next (ok n q'.hash.count { v with
          sessions := Tab.set v.sessions n q', contexts := Tab.set v.contexts k (sessionCtx q' n s.datum) })) ∧
      (q.declared = q.hash.count + data.length → recordRoom s sl 1 = true → q.tokey = false → ∃ u out,
        exec (.digestFinal h d data) s = .next u ∧
        out = finishHash s q.alg q.hmac q.keySlot (feedHash q.alg q.hash data) ∧
        Tab.get? u.sessions n = none ∧ (q.ctx = some k → Tab.get? u.contexts k = none) ∧
        Decides s u (answer h sOk (newHandle s) out.length []) ∧
        (Tab.get? u.results (newHandle s % 65536)).map (·.bytes) = some (recordBytes 3 0 [] out [] s.datum 0 false)) ∧
      (q.declared < q.hash.count + data.length → ∃ u, exec (.digestContinue h d data) s = .next u ∧
        Tab.get? u.sessions n = none ∧ (q.ctx = some k → Tab.get? u.contexts k = none) ∧
        Decides s u (answer h (sVendor 0x89) 0 0 []))) ∧
    (∀ q k, let n := bits d.d11.toNat 15 0
      digestFields d [] false true = true → sessionFor s sl n = some q → q.ctx = some k → exec (.digestAbandon h d) s =
        .next (ok 0 0 { s with sessions := Tab.erase s.sessions n, contexts := Tab.erase s.contexts k })) ∧
    (digestFields d [] false false = true → derivedOf s sl (bits d.d14.toNat 15 8) = true →
      exec (.digestEraseKeySlot h d) s = .next (ok 0 0 (eraseKey (bits d.d14.toNat 15 8) s))) ∧
    (derivedOf s sl (bits d.d14.toNat 15 8) = false → exec (.digestEraseKeySlot h d) s = .next (no sField))) ∧
  (∀ (s : State) (n key : Nat) (q : DigestSession), Tab.get? s.sessions n = some q → q.ctx = some key →
    (freeContext s (key / 8) = none → lruSession s (· = key / 8) = some n → exec (.digestSessionEvict n) s = .next { s with
      contexts := Tab.erase s.contexts key, sessions := Tab.set s.sessions n { q with ctx := none } }) ∧
    ((freeContext s (key / 8)).isSome = true → exec (.digestSessionEvict n) s = .next s)) ∧
  (∀ (s : State) (i : Nat),
    let k := keyOf s i
    (∀ t f w, k.typ ≠ .free → k.durable = false → k.waitTask = some (t, f) → k.waitHost = none → taskOf s t = some w →
      ∃ u w', exec (.derivedKeyDurable i) s = .next u ∧ keyOf u i = { k with durable := true, waitTask := none } ∧
        taskOf u t = some w' ∧ w'.flags = w.flags ||| (1#32 <<< (f % 32)) ∧
        w'.ports = { w.ports with dgReady := true, dgResult := toLe 1 i, dgErr := 0 }) ∧
    (k.typ ≠ .free → k.durable = false → s.fwPorts.ksBusy = none → k.waitTask = none →
      let u := { s with keys := Tab.set s.keys i { k with durable := true, waitTask := none, waitHost := none } }
      (k.waitHost = none → exec (.derivedKeyDurable i) s = .next u) ∧
      ∀ h, k.waitHost = some h → k.typ ≠ .identity → exec (.derivedKeyDurable i) s =
        .next { u with decided := s.decided ++ [answer h sOk i 0 []] }) ∧
    (k.durable = true → exec (.derivedKeyDurable i) s = .next s) ∧
    (k.stale = true → exec (.keyCopyErase i) s = .next { s with keys := Tab.set s.keys i { k with stale := false } }) ∧
    (k.stale = false → exec (.keyCopyErase i) s = .next s)) ∧
  ∀ (s : State) (c : CoreId) (v : View) (owner : BitVec 9), Issues s c Guard.always v → viewFw v = true →
    v.task.storeError = none → v.core.stores = [] →
    let i := s.fwPorts.ksSel
    let next := viewPc v + 4
    (4 ≤ i → i < 256 → owner.toNat ≤ 256 → (keyOf s i).typ = .free → ∃ key n, key.length = 64 ∧ halvesDiffer key = true ∧
      RetiresAfter (.ksGenerate c owner) c s { s with
        keys := Tab.set s.keys i
          { typ := .xts, owner := owner.toNat, gen := (keyOf s i).gen + 1, bits := 512, key := key
            stale := (keyOf s i).stale }
        drawn := n, fwPorts := { s.fwPorts with ksStat := 0, ksBusy := some i } } v next (rd v) (rdp v)) ∧
    (4 ≤ i → i < 256 → owner.toNat ≤ 256 → (keyOf s i).typ ≠ .free → RetiresAfter (.ksGenerate c owner) c s
      { s with fwPorts := { s.fwPorts with ksStat := 0x8000001A#32 } } v next (rd v) (rdp v)) ∧
    (4 ≤ i → i < 256 → RetiresAfter (.ksErase c) c s { s with
        keys := Tab.set s.keys i { gen := (keyOf s i).gen + 1, stale := true }
        fwPorts := { s.fwPorts with ksStat := 0x80000000#32 } } v next (rd v) (rdp v)) ∧
    (i < 4 → RetiresAfter (.ksErase c) c s { s with fwPorts := { s.fwPorts with ksStat := 0x8000001A#32 } } v next
      (rd v) (rdp v)))

/-- R253, R451 to R454, R456 to R458, R461, R463, R465 to R467: a slice create is refused for a bad field, then for the
first resource that is short, else it makes the slice with the lowest number and the lowest ranges that are free; a
destroy waits for seals in progress and for those that wait for their turn, is refused while an extent is sealed and
gives everything of an idle slice back; relays act for an active slice only, with the direction of their opcode. The
translation port maps a span that is valid, aligned and overlaps none of its tag, unmaps the span at its address, and
unmaps all of a slice. Where the spec leaves a choice it follows assumptions 61, 97 and 98. -/
def Obligations.TenantSlices : Prop :=
  ((∀ (h : Sub) (d : Cdw) (data : List Byte) (s : State),
    let b := fit 64 data
    let p := hostPortNo (field b 30 1)
    (createFields s d b = false → exec (.sliceCreate h d data) s = .next (completeAt h sField 0 0 [] 0 0 s)) ∧
    (∀ code, createFields s d b = true → createResources s d.d10.toNat b = .error code →
      exec (.sliceCreate h d data) s = .next (completeAt h (sVendor 0x87) code 0 [] 0 0 s)) ∧
    (∀ i q v, createFields s d b = true → createResources s d.d10.toNat b = .ok (i, q, v) →
      let x : Slice :=
        { state := .active, port := field b 30 1, pasid := field b 0 4, qbase := q, qpairs := field b 4 2, vbase := v
          vectors := field b 6 2, dramMib := field b 8 4, dramUsed := field b 12 4, commonMib := field b 12 4
          capGib := field b 16 4, kaUnits := field b 20 2, slots := field b 22 1, dctx := field b 23 1
          streamBw := field b 24 4, weight := field b 28 2, forerunner := (field b 31 1).testBit 0, created := s.datum }
      exec (.sliceCreate h d data) s = .next { s with
        slices := Tab.set s.slices i x, sliceGen := s.sliceGen + 1
        decided := s.decided ++ [answer h sOk i (q + v * 65536) []] }) ∧
    (∀ want i q v, createResources s want b = .ok (i, q, v) →
      (want ≠ 0 → i = want) ∧
      (want = 0 → 1 ≤ i ∧ i ≤ 256 ∧ (sliceOf s i).state = .none ∧ ∀ j, 1 ≤ j → j < i → (sliceOf s j).state ≠ .none) ∧
      1 ≤ q ∧ q + field b 4 2 ≤ 16385 ∧ (∀ j, j < field b 4 2 → qidFree s p (q + j) = true) ∧
      1 ≤ v ∧ v + field b 6 2 ≤ 2048 ∧ (∀ j, j < field b 6 2 → vectorFree s p (v + j) = true))) ∧
  (∀ (h : Sub) (d : Cdw) (s : State),
    let i := d.d10.toNat
    let x := sliceOf s i
    let p := hostPortNo x.port
    let bad := (256 < i ∨ i = 0 ∨ 1 < d.d11.toNat ∨ { d with d10 := 0, d11 := 0 } ≠ ({} : Cdw) ∨ x.state ≠ .active)
    (bad → exec (.sliceDestroy h d) s = .next (completeAt h sField 0 0 [] 0 0 s)) ∧
    (¬bad → sealsInProgress s (sliceNs s i) = true → exec (.sliceDestroy h d) s = .next s) ∧
    (¬bad → sealWaits s (sliceNs s i) = true → exec (.sliceDestroy h d) s = .next s) ∧
    (¬bad → sealsInProgress s (sliceNs s i) = false → sealWaits s (sliceNs s i) = false → anySealed s (sliceNs s i) = true →
      exec (.sliceDestroy h d) s = .next (completeAt h (sVendor 0x80) 0 0 [] 0 0 s)) ∧
    (¬bad → sliceNs s i = [] → (∀ e ∈ s.slices, e.2.state ≠ .destroying) → (∀ e ∈ (portOf s p).sqs, e.2.slice ≠ i) →
      (∀ e ∈ s.tasks, e.2.slice ≠ i) → (∀ e ∈ s.resvs, e.slice ≠ i) → (∀ e ∈ s.sessions, e.2.slice ≠ i) →
      (∀ e ∈ s.tables, e.2.slice ≠ i) → (∀ e ∈ s.sets, e.2.slice ≠ i) → (∀ e ∈ s.keys, e.2.owner ≠ i) →
      (∀ e ∈ s.results, e.2.slice ≠ i) → ∃ t, exec (.sliceDestroy h d) s = .next t ∧ (sliceOf t i).state = .none ∧
        (∀ j, j ≠ i → sliceOf t j = sliceOf s j) ∧
        t = { s with
          slices := t.slices, sliceGen := s.sliceGen + 1, scrubMib := s.scrubMib + x.dramMib
          ports := Tab.set s.ports p.val { portOf s p with cqs := (portOf s p).cqs.filter fun q => decide (q.2.slice ≠ i) }
          accounts := Tab.erase s.accounts i
          poolTab := s.poolTab.filter fun e => decide (e.2.slice ≠ i)
          progs := s.progs.filter fun e => decide (e.2.slice ≠ i)
          flows := s.flows.filter fun e => decide (e.2.slice ≠ i)
          stu := s.stu.filter fun e => decide (e.slice ≠ i)
          dram := t.dram
          decided := s.decided ++ [answer h sOk 0 0 []] })) ∧
  (∀ (h : Sub) (d : Cdw) (s : State) (c : Relayed),
    let i := d.d10.toNat
    let x := sliceOf s i
    let no := fun st : Status => completeAt h st 0 0 [] 0 0 s
    let good := 1 ≤ i ∧ i ≤ 256 ∧ d.d11 = 0 ∧ d.d14 = 0 ∧ d.d15 = 0 ∧ d.d12.toNat % 8 = 0 ∧ x.state = .active
    (¬good → exec (.sliceAdminRelay h d c) s = .next (no sField) ∧ exec (.sliceAdminRelayRead h d c) s = .next (no sField)) ∧
    (returnsData c = true → exec (.sliceAdminRelay h d c) s = .next (no sField)) ∧
    (returnsData c = false → exec (.sliceAdminRelayRead h d c) s = .next (no sField)) ∧
    (good →
      (∀ a b, a < 65535 → b < 65535 → exec (.sliceAdminRelay h d (.setNumberOfQueues a b)) s = .next { s with
        decided := s.decided ++ [answer h sOk (min a (x.qpairs - 1) + min b (x.qpairs - 1) * 65536) 0 []] }) ∧
      (∀ fid, exec (.sliceAdminRelay h d (.setOtherFeature fid)) s = .next (no sField)) ∧
      (∀ op, op % 4 ≠ 2 → exec (.sliceAdminRelay h d (.other op)) s = .next (no sOpcode)) ∧
      (∀ op, op % 4 = 2 → exec (.sliceAdminRelayRead h d (.other op)) s = .next (no sOpcode)) ∧
      (∀ sel v, sel < 3 → exec (.sliceAdminRelayRead h d (.getFeatures 0x07 sel v)) s = .next { s with
        decided := s.decided ++ [answer h sOk ((x.qpairs - 1) * 65537) 0 []] }) ∧
      ∀ sq cid, ((sqOf s (hostPortNo x.port) sq).map (·.slice)) ≠ some i →
        exec (.sliceAdminRelay h d (.abort sq cid)) s = .next (no (sCmd 0x01)))) ∧
  ∀ (s : State) (p : PortId) (on : Bool),
    ((portOf s p).present = true → exec (.pasidEnableChange p on) s =
      .next { s with ports := Tab.set s.ports p.val { portOf s p with pasidEnable := on } }) ∧
    ((portOf s p).present = false → exec (.pasidEnableChange p on) s = .next s) ∧
    ∀ mib, exec (.sliceDramFillComplete mib) s = .next { s with scrubMib := s.scrubMib - mib }) ∧
  (∀ (s : State) (c : CoreId) (v : View), Issues s c Guard.always v → viewFw v = true → v.task.storeError = none →
    v.core.stores = [] →
    let p := s.fwPorts
    let a := p.stAttr.toNat
    let sl := bits a 8 0
    let task := if a.testBit 23 then some (bits a 22 9) else none
    let va := p.stVa.toNat / 4096 * 4096
    let pa := bits p.stPaHi.toNat 7 0 * 2 ^ 32 + p.stPaLo.toNat / 4096 * 4096
    let len := 4096 * 2 ^ bits a 28 24
    let there := sl = 0 ∨ (sl ≤ 256 ∧ (sliceOf s sl).state ≠ .none)
    let tagged := fun e : StuEntry => e.slice = sl ∧ e.task = task
    let valid := (bits a 31 30 = 1 ∨ bits a 31 30 = 3) ∧ bits a 28 24 ≤ 18 ∧ va % len = 0 ∧
      (a.testBit 29 = true ∨ pa % len = 0) ∧ there ∧
      ∀ e ∈ s.stu, tagged e → va + len ≤ e.va ∨ e.va + 4096 * 2 ^ e.size ≤ va
    let after := fun (i : Instr) (stu : List StuEntry) (st : Word) => RetiresAfter i c s
      { s with stu := stu, fwPorts := { p with stStat := 0x80000000#32 + st } } v (viewPc v + 4) (rd v) (rdp v)
    (valid → after (.stMap c) (s.stu ++ [{ slice := sl, task := task, va := va, size := bits a 28 24
                                           write := decide (bits a 31 30 = 3), scratch := a.testBit 29, pa := pa }]) 0) ∧
    (¬valid → after (.stMap c) s.stu 7) ∧
    ((∃ e ∈ s.stu, tagged e ∧ e.va = va) →
      after (.stUnmap c) (s.stu.filter fun e => decide ¬(tagged e ∧ e.va = va)) 0) ∧
    ((¬∃ e ∈ s.stu, tagged e ∧ e.va = va) → after (.stUnmap c) s.stu 1) ∧
    (there → after (.stUnmapSlice c) (s.stu.filter fun e => decide (e.slice ≠ sl)) 0) ∧
    (¬there → after (.stUnmapSlice c) s.stu 7))

/-- R45, R469 to R472, R474 to R478, R483, R484, R489 to R495: enforcement starts at level 1 when the grace period ends
in T1 and rises and falls one level at a time after its interval; a block whose tasks have ended is powered off when
its stop times out; a sensor is sampled when it is due, and enters or leaves a threshold's state with the second sample
in a row at or beyond it; a failed self-check is counted. A VIN conversion is kept and reaches the extremes; an
overvoltage is recorded once; a command at a port in a non-operational power state brings back its last operational
one, after a baseline computation that runs. Where the spec leaves a choice it follows assumptions 26 and 100. -/
def Obligations.HeatAndSupply : Prop :=
  (∀ (s : State),
    (∀ d, s.thermal.graceStart = some d → s.thermal.inT1 = true → s.thermal.level = 0 →
      d + s.features.grace * 10000000 ≤ s.datum → ∃ t, exec .thermalGraceExpiry s = .next t ∧ t.thermal.level = 1 ∧
        t.thermal.levelAt = s.datum ∧ t.smart.tmt1Count = s.smart.tmt1Count + 1 ∧
        ∃ e ∈ t.faults.ring, e.cls = 0x31 ∧ e.aux0 = 1 ∧ e.event = 6 ∧ e.outcome = 2) ∧
    (s.thermal.inT1 = true → 1 ≤ s.thermal.level → s.thermal.level < 8 → s.thermal.levelAt + 2000000 ≤ s.datum →
      ∃ t, exec .enforcementLevelRise s = .next t ∧ t = { s with thermal := t.thermal, regions := t.regions } ∧
        t.thermal = { s.thermal with level := s.thermal.level + 1, levelAt := s.datum, graceStart := none }) ∧
    (s.thermal.inT1 = false → holdsEight s = false → 2 ≤ s.thermal.level → s.thermal.levelAt + 10000000 ≤ s.datum →
      ∃ t, exec .enforcementLevelFall s = .next t ∧ t = { s with thermal := t.thermal, regions := t.regions } ∧
        t.thermal = { s.thermal with level := s.thermal.level - 1, levelAt := s.datum, graceStart := none }) ∧
    (∀ (r : RegionId) (b : Fin 4) d, s.thermal.t2Blocks.find? (fun x => decide (x.1 = 4 * r.val + b.val)) = some (4 * r.val + b.val, d) →
      d + 10000000 ≤ s.datum → blockTasks s (4 * r.val + b.val) = [] → ∃ t, exec (.t2BlockStopTimeout r b) s = .next t ∧
        t = { s with domains := t.domains, powerQueue := t.powerQueue, arbiters := t.arbiters } ∧ domainState t r.val (32 + b.val) = .off ∧
        ∀ i, i < 8 → domainState t r.val (8 * b.val + i) = .off) ∧
    (∀ (n : Fin 64) (t0 : Int) code, s.vaon = true → s.startup.waitingHot = false → let x := sensorOf s n.val
      (s.datum < x.nextSample → exec (.sensorSample (.onDie n) t0 code) s = .next s) ∧
      (x.nextSample ≤ s.datum → x.broken = true → ∃ t, exec (.sensorSample (.onDie n) t0 code) s = .next t ∧
        t = { s with thermal := t.thermal } ∧
        sensorOf t n.val = { x with reading := some t0, code := code, nextSample := s.datum + sampleGap t0 }) ∧
      (x.nextSample ≤ s.datum → x.broken = false → x.code ≠ code → -220 ≤ t0 → t0 ≤ 600 →
        ∃ t, exec (.sensorSample (.onDie n) t0 code) s = .next t ∧ (sensorOf t n.val).reading = some t0 ∧
          (x.t1.inside = false → ((sensorOf t n.val).t1.inside = true ↔ 420 ≤ t0 ∧ 1 ≤ x.t1.count)) ∧
          (x.t1.inside = true → ((sensorOf t n.val).t1.inside = false ↔ t0 ≤ 408 ∧ 1 ≤ x.t1.count)) ∧
          (x.t2.inside = false → ((sensorOf t n.val).t2.inside = true ↔ 460 ≤ t0 ∧ 1 ≤ x.t2.count)) ∧
          (x.t2.inside = true → ((sensorOf t n.val).t2.inside = false ↔ t0 ≤ 448 ∧ 1 ≤ x.t2.count)))) ∧
    (∀ (t0 : Int) code, s.vaon = true → s.startup.waitingHot = false → (sensorOf s 65).broken = false → (sensorOf s 65).nextSample ≤ s.datum →
      ∃ t, exec (.sensorSample (.th 1) t0 code) s = .next t ∧ t = { s with thermal := t.thermal, book := t.book } ∧
        (sensorOf t 65).reading = some t0 ∧ (sensorOf t 65).nextSample = s.datum + 1600000) ∧
    (∀ l, s.datum < s.thermal.checkAt → exec (.sensorSelfCheck l) s = .next s) ∧
    (s.thermal.checkAt ≤ s.datum → (∀ n, n < 68 → (sensorOf s n).checkFails = 0) →
      exec (.sensorSelfCheck []) s = .next { s with thermal := { s.thermal with checkAt := s.datum + 1000000000 } } ∧
      ∀ n : Fin 64, ∃ t, exec (.sensorSelfCheck [n.val]) s = .next t ∧
        t = { s with thermal := t.thermal } ∧ sensorOf t n.val = { sensorOf s n.val with checkFails := 1 })) ∧
  (∀ (s : State) (v : Nat),
    (s.datum < s.supply.convertAt → exec (.vinConversion v) s = .next s) ∧
    (s.vaon = true → s.supply.convertAt ≤ s.datum → s.dump.active = false → ∃ t, exec (.vinConversion v) s = .next t ∧
      t = { s with supply := t.supply, book := t.book } ∧ t.supply.vin = v ∧ t.supply.convertAt = s.datum + 100000 ∧
      t.supply.vinMinSecond = some (min v (s.supply.vinMinSecond.getD v)) ∧
      t.supply.overvolted = (s.supply.overvolted && decide (1650 < v))) ∧
    (s.supply.overvolted = false → 1650 < v → ∃ t, exec (.vinOvervoltage v) s = .next t ∧
      t = { s with supply := t.supply, book := t.book, faults := t.faults } ∧
      t.supply = { s.supply with overvolted := true } ∧
      ∃ e ∈ t.faults.ring, e.cls = 0x36 ∧ e.aux0 = v ∧ e.outcome = 2) ∧
    (s.supply.overvolted = true → exec (.vinOvervoltage v) s = .next s) ∧
    (∀ port : PortId, s.supply.ps < 3 → exec (.powerStateExit port) s = .next s) ∧
    (∀ port : PortId, 3 ≤ s.supply.ps → s.base.running = true → exec (.powerStateExit port) s =
      .next { s with base := { s.base with held := s.base.held ++ [.exit port] } }) ∧
    (∀ port : PortId, 3 ≤ s.supply.ps → s.base.running = false →
      (∀ p q, (p, q) ∈ (setReqPs port s.supply.lastOperational s).ports → q.present = true →
        s.supply.lastOperational ≤ q.reqPs) → (portOf s port).present = true → s.supply.lastOperational < 3 →
      ∃ t, exec (.powerStateExit port) s = .next t ∧ t.supply.ps = s.supply.lastOperational ∧
        (portOf t port).reqPs = s.supply.lastOperational ∧ t.tasks = s.tasks ∧ t.namespaces = s.namespaces))

/-- R59, R412, R504, R508 to R512, R517: a lit region enters penumbra, with an entry for it; when nothing of it runs it
goes to umbra, its domains are off, but for the fabric domain of a voluntary one, and an entry with an event says so; a
clean self-test restores its restorable units; after it the region relights, and it is lit again, with a fresh copy of
the datum, when every domain is on and its key-array segments are reloaded. Where the spec leaves a choice it follows
assumption 106. -/
def Obligations.RegionLifeCycle : Prop :=
  ∀ (s : State) (r : RegionId) (cause : Nat),
    let g := region s r.val
    let settled := ∀ e ∈ s.tasks, e.2.region = r.val → e.2.phase = .running ∨ opBusy e.2 = true
    (g.state = .lit → cause ≠ 0 → ∃ t, exec (.eclipseBegin r cause) s = .next t ∧
      (region t r.val).state = .penumbra ∧ (region t r.val).since = s.datum ∧ (region t r.val).cause = cause ∧
      (region t r.val).voluntary = false ∧
      (settled → (∀ q, (region s q).voluntary = false) → t.tasks = s.tasks ∧ t.cores = s.cores) ∧
      ∃ e ∈ t.faults.ring, e.cls = 0x34 ∧ e.site = { kind := 2, index := r.val } ∧ e.aux0 = 1 ∧ e.aux1 = cause) ∧
    (mayEclipse s r.val = true → ∃ t, exec (.eclipseBegin r 0) s = .next t ∧
      (region t r.val).state = .penumbra ∧ (region t r.val).voluntary = true ∧ ∀ q, q ≠ r.val → region t q = region s q) ∧
    (g.state = .penumbra → (∃ e ∈ s.tasks, e.2.region = r.val ∧ e.2.phase = .running) → s.datum < g.since + 10000000 →
      g.cause ≠ 1 → exec (.penumbraEnd r) s = .next s) ∧
    (g.state = .penumbra → regionTasks s r.val = [] → g.sensorRetire = false → g.involuntary = [] →
      let u := { s with
        regions := Tab.set s.regions r.val { g with
          state := .umbra, powered := false, servicing := g.voluntary, since := s.datum, pace := 0, lowWindows := 0 }
        arbiters := (toSpacer (fun t => decide (siteRegion t = some r.val)) s).arbiters
        domains := s.domains.filter fun d => decide (d.1 / 47 ≠ r.val)
        powerQueue := s.powerQueue.filter fun k => decide (k / 47 ≠ r.val) }
      exec (.penumbraEnd r) s = .next (stateEntry r.val 2 g.cause g.related 2
        (if g.voluntary = true then setDomain u r.val 46 .on else u))) ∧
    (∀ l, g.state ≠ .umbra ∨ 8 ≤ poweringCount s → exec (.selfTest r l) s = .next s) ∧
    (g.state = .umbra → poweringCount s < 8 → exec (.selfTest r []) s = .next
      (modRegion r.val (fun g => { g with tested := true })
        ((s.faults.retired.filter fun u => u.restorable && decide (siteRegion u.site = some r.val)).foldl
          (fun s u => restoreUnit u.site (unfence u.site s)) s))) ∧
    (g.state = .umbra → g.tested = true ∨ g.voluntary = true → g.t2 = false → g.relighting = false →
      ∃ t, exec (.relight r) s = .next t ∧
        t = { s with regions := t.regions, domains := t.domains, powerQueue := t.powerQueue } ∧
        region t r.val = { g with relighting := true, servicing := false } ∧
        (∀ q, q ≠ r.val → region t q = region s q)) ∧
    (g.relighting = true → domainsReady s r.val = true → banksReady s r.val = true →
      ∃ t, exec (.regionLit r) s = .next t ∧ (region t r.val).state = .lit ∧ (region t r.val).relighting = false ∧
        (region t r.val).powered = true ∧ Tab.get? t.copies r.val = some s.datum) ∧
    (g.relighting = false ∨ domainsReady s r.val = false ∨ banksReady s r.val = false → exec (.regionLit r) s = .next s)

/-- R506, R507, R515, R516, R40: the standby queue manager takes over from one whose halves disagree, and a test
restores or retires the former; a supervisor copy that is outvoted is resynchronised or retired; with no spare left the
fault is detected. Firmware's mailbox begins a voluntary eclipse and a relight as the supervisor does, records an entry
with DETAIL as its address and retires a unit, each with its status in SV_STAT; a trace word joins the ring of the
core's region while tracing is on. Where the spec leaves a choice it follows assumptions 25 and 106. -/
def Obligations.RedundantUnitsAndMailbox : Prop :=
  (∀ (s : State) (copy : Fin 3) (ok : Bool),
    let f := s.faults
    (f.qmActive = 0 → f.qm[1] = 0 → exec .queueManagerMismatch s = .next (recordMasked
      { level := 3, cls := 0x0E, site := { kind := 11, index := 0 }, aux0 := 1 }
      { s with faults := { f with qmActive := 1, qm := f.qm.set 0 1 } })) ∧
    (f.qmActive = 0 → f.qm[1] ≠ 0 → exec .queueManagerMismatch s = .next (onPorts (fun p => { p with cfs := true })
      (recordDetected { level := 3, cls := 0x0E, site := { kind := 11, index := 0 }, aux0 := 0 } s))) ∧
    (f.qm[0] = 1 → f.qm[1] = 0 → f.qmRestoredAt = none →
      exec (.queueManagerTestComplete true) s = .next { s with faults := { f with
        qm := Vector.ofFn fun _ => 0, qmRestoredAt := some s.opsec } } ∧
      exec (.queueManagerTestComplete false) s = .next { s with faults := { f with
        qm := Vector.ofFn fun i => if i.val = 0 then 2 else 0 } }) ∧
    (f.sup = Vector.replicate 3 0 → f.supStopped = false → exec (.supervisorVoteMismatch copy) s = .next (recordMasked
      { level := 3, cls := 0x0F, site := { kind := 11, index := 4 + copy.val }, aux0 := copy.val }
      { s with faults := { f with sup := f.sup.set copy.val 1 } })) ∧
    (∀ other : Fin 3, other ≠ copy → f.sup[other] = 2 → f.sup[copy] = 0 → f.supStopped = false →
      exec (.supervisorVoteMismatch copy) s = .next (recordDetected
        { level := 3, cls := 0x0F, site := { kind := 11, index := 4 + copy.val }, aux0 := copy.val }
        { s with faults := { f with supStopped := true }, holdUp := { s.holdUp with charging := false } })) ∧
    (f.sup[copy] = 1 → exec (.supervisorResyncComplete copy ok) s =
      .next { s with faults := { f with sup := f.sup.set copy.val (if ok then 0 else 2) } }) ∧
    (∀ w, exec (.pmbAlert w) s = .next (recordDetected
      { level := 3, cls := 0x0D, site := { kind := 11, index := 9 }, aux0 := s.vcore.vset, aux1 := w }
      { s with supply := { s.supply with lastAlert := w } }))) ∧
  (∀ (s : State) (c : CoreId) (v : View) (r : RegionId) (rs : Reg), Issues s c Guard.always v → viewFw v = true →
    v.task.storeError = none → v.core.stores = [] →
    let next := viewPc v + 4
    let after := fun (i : Instr) (s1 : State) => RetiresAfter i c s s1 v next (rd v) (rdp v)
    let done := fun (t : State) => { t with fwPorts := { t.fwPorts with svStat := 0x80000000#32 } }
    let site := BitVec.ofNat 16 (0x2000 + r.val)
    (mayEclipse s r.val = true → (∀ e ∈ s.tasks, e.2.region = r.val → e.2.phase = .running ∨ opBusy e.2 = true) →
      ∃ t, exec (.eclipseBegin r 0) s = .next t ∧ after (.svEclipse c site) (done t)) ∧
    (mayEclipse s r.val = false → after (.svEclipse c site)
      { s with fwPorts := { s.fwPorts with svStat := 0x80000020#32 } }) ∧
    ((region s r.val).state = .umbra →
      let waits := { s with fwPorts := { s.fwPorts with svStat := 0, svWait := some (r.val, 2) } }
      ∃ t, exec (.relight r) waits = .next t ∧ after (.svRelight c site) t) ∧
    ((region s r.val).state = .lit → after (.svRelight c site) (done s)) ∧
    (∀ cls : BitVec 8, (0x30 ≤ cls.toNat ∧ cls.toNat ≤ 0x39) → after (.svRecord c cls site) (done (recordNote
      { level := 2, cls := cls.toNat, site := { kind := 2, index := r.val }, addr := s.fwPorts.svDetail.toNat } 0 s))) ∧
    (∀ k : Fin 32, after (.svRetire c (BitVec.ofNat 16 (0x4000 + k.val)))
      (done (retireUnit { kind := 4, index := k.val } false s))) ∧
    (s.fwPorts.trEn = true →
      let words := traceOf s (v.c / 32) ++ [(rd v rs, s.datum, v.c)]
      after (.trDataWrite c rs) { s with fwPorts := { s.fwPorts with
        trace := Tab.set s.fwPorts.trace (v.c / 32) (words.drop (words.length - Config.traceWords)) } }) ∧
    (s.fwPorts.trEn = false → after (.trDataWrite c rs) s))

/-- R117, R214, R488, R526, R529 to R533, R535: an operating second of 100,000,000 ticks counts once the device is
started, and adds to residencies and health counters, and makes a flush or a measurement due; a flush takes the content
of its moment under the next generation, leaves it in the slots of that generation and completes what waits for it; a
clear needs a presence window, zeroes the book and counts itself. Where the spec leaves a choice it follows assumption
108. -/
def Obligations.OperatingSecondsAndBook : Prop :=
  (∀ s : State,
    let b := s.book
    let k := ((composite s).map kelvin).getD 0
    let count := fun (t : State) (o : Nat) => Tab.getD t.book.hist o 0 = min (2 ^ 32 - 1) (Tab.getD b.hist o 0 + 1)
    (s.startup.done = false ∨ s.dump.poweredDown = true ∨ s.datum < s.secAt + 100000000 → exec .operatingSecond s = .next s) ∧
    (s.startup.done = true → s.dump.poweredDown = false → s.secAt + 100000000 ≤ s.datum → ∃ t, exec .operatingSecond s = .next t ∧
      t = { s with opsec := t.opsec, book := t.book, smart := t.smart, supply := t.supply, media := t.media
                   holdUp := t.holdUp, secAt := s.secAt + 100000000
                   dram := { s.dram with
                     passSecs := if s.dram.selfRefresh = true then s.dram.passSecs else s.dram.passSecs + 1 } } ∧
      t.opsec = min (2 ^ 40 - 1) (s.opsec + 1) ∧ t.supply = { s.supply with vinMinSecond := none } ∧
      t.media = { s.media with waLog := t.media.waLog } ∧
      t.book = { b with hist := t.book.hist, again := t.book.again } ∧
      t.book.again = (if b.flushOpsec + 3600 ≤ t.opsec ∧ b.flushing = none then b.again.or (some 3) else b.again) ∧
      count t (3008 + 4 * s.thermal.level) ∧
      (∀ r : RegionId, isLit s r.val = true → count t (2304 + 64 * r.val + 4 * paceBin (region s r.val).pace)) ∧
      (∀ (r : RegionId) x, tjOf s r.val = some x → count t (1216 + 136 * r.val + 4 * tjBin x)) ∧
      (∀ x, s.supply.vinMinSecond = some x → count t (2816 + 4 * vinBin x)) ∧
      t.smart.warnSecs = (if 378 ≤ k ∧ k < 388 then s.smart.warnSecs + 1 else s.smart.warnSecs) ∧
      t.smart.critSecs = (if 388 ≤ k then s.smart.critSecs + 1 else s.smart.critSecs) ∧
      t.smart.tmt1Secs = (if 0 < s.thermal.level then s.smart.tmt1Secs + 1 else s.smart.tmt1Secs) ∧
      t.smart.tmt2Secs = (if anyStopped s = true then s.smart.tmt2Secs + 1 else s.smart.tmt2Secs) ∧
      t.holdUp = (if s.holdUp.dueAt ≤ t.opsec ∧ s.holdUp.step = .idle ∧ s.startup.huValid = true ∧ s.holdUp.retry = false
        then { s.holdUp with step := .waiting s.datum, scheduled := true, dueAt := s.holdUp.dueAt + 86400 } else s.holdUp))) ∧
  (∀ (s : State) (cause : Nat),
    let b := s.book
    let starts := fun (c : Nat) (b : FieldBook) =>
      { b with flushing := some c, again := none, gen := (b.gen + 1) % 2 ^ 32, flushCause := c, flushOpsec := s.opsec
               flushPcc := s.pcc, ecHist := ecHist s, flushWaiters := b.clearers, clearers := [] }
    (b.flushing = none → b.again = some cause → exec (.fieldBookFlush cause) s = .next { s with
      book := starts cause b
      flushImage := some ({ starts cause b with flushing := none, flushWaiters := [] }, s.faults) }) ∧
    (b.flushing ≠ none ∨ b.again ≠ some cause → exec (.fieldBookFlush cause) s = .next s) ∧
    (b.flushing = none → exec .fieldBookFlushComplete s = .next s) ∧
    (∀ c im, b.flushing = some c → s.flushImage = some im →
      let b' := { b with flushing := none, norGen := b.gen, nandGen := b.gen, flushWaiters := [] }
      let k := b.gen % 2
      let done := { s with bookSlots := [(k, im), (2 + k, im)], decided := s.decided ++ b.flushWaiters.map fun h => answer h sOk 0 0 [] }
      (b.again = none → exec .fieldBookFlushComplete s = .next { done with book := b', flushImage := none }) ∧
      (∀ c', b.again = some c' → exec .fieldBookFlushComplete s = .next { done with
        book := starts c' b'
        flushImage := some ({ starts c' b' with flushing := none, flushWaiters := [] }, s.faults) }))) ∧
  ∀ (h : Sub) (nsid : Nat) (d : Cdw) (s : State),
    let b := s.book
    let p := s.presence
    (nsid ≠ 0 ∨ d ≠ {} → exec (.fieldBookClear h nsid d) s = .next (completeAt h sField 0 0 [] 0 0 s)) ∧
    (p.state ≠ .opened → exec (.fieldBookClear h 0 {}) s = .next (completeAt h (sVendor 0x85) 0 0 [] 0 0 s)) ∧
    (p.state = .opened → b.clearArea.length < 4096 → ∃ t, exec (.fieldBookClear h 0 {}) s = .next t ∧
      t = { s with book := t.book, presence := t.presence, dram := t.dram } ∧
      t.book = { b with
        counters := [(0, 1), (1, 1), (3, 1)], extremes := [], hist := [], ldpc := [], holdup := [], ecHist := []
        clears := b.clears + 1, clearOpsec := s.opsec, clearPcc := s.pcc
        clearArea := b.clearArea ++ [(s.opsec, s.pcc, b.clears + 1)]
        again := b.again.or (some 4), clearers := b.clearers ++ [h] } ∧
      t.presence = { p with state := if p.left ≤ 1 then .idle else .opened, left := p.left - 1, sealOpened := false } ∧
      ∀ e ∈ t.dram.channels, e.2.corrected = 0 ∧ e.2.uncorrectable = 0 ∧ e.2.misdirected = 0)

/-- R536 to R541: an Arm waits 30 s for the service contact; a window opens once the contact has been held for 1 s
since the Arm, lasts 120 s and serves eight privileged commands; the identity key is replaced and the debug port
enabled only inside one; removing the jumper disables the debug port; the seal loop, compared every 10 ms, opens with
the second mismatch in a row and closes with the second match. Where the spec leaves a choice it follows assumption
108. -/
def Obligations.PhysicalPresence : Prop :=
  (∀ (h : Sub) (nsid : Nat) (d : Cdw) (s : State),
    let p := s.presence
    let good := nsid = 0 ∧ d.d10.toNat < 4 ∧ { d with d10 := 0 } = ({} : Cdw)
    let counted := fun i : Nat =>
      { s.book with counters := Tab.set s.book.counters i (min (2 ^ 32 - 1) (Tab.getD s.book.counters i 0 + 1)) }
    let used := { p with state := if p.left ≤ 1 then .idle else p.state, left := p.left - 1 }
    let no := fun st : Status => completeAt h st (presenceDword s) 0 [] 0 0 s
    (¬good → exec (.presenceArm h nsid d) s = .next (no sField) ∧ exec (.presenceClose h nsid d) s = .next (no sField) ∧
      exec (.debugPortEnable h nsid d) s = .next (no sField) ∧ exec (.identityKeyReset h nsid d) s = .next (no sField)) ∧
    (good → p.state ≠ .opened → exec (.presenceArm h nsid d) s = .next { s with
        presence := { p with state := .armed, deadline := s.datum + 3000000000, left := 0 }
        book := counted 0, decided := s.decided ++ [answer h sOk (30 * 65536 + 1) 0 []] } ∧
      exec (.debugPortEnable h nsid d) s = .next (no (sVendor 0x85)) ∧
      exec (.identityKeyReset h nsid d) s = .next (no (sVendor 0x85))) ∧
    (good → p.state = .opened → exec (.presenceArm h nsid d) s = .next { s with
        book := counted 0, decided := s.decided ++ [answer h sOk (presenceDword s) 0 []] } ∧
      (p.serviceLow = false → exec (.debugPortEnable h nsid d) s = .next (no (sVendor 0x85))) ∧
      (p.serviceLow = true → exec (.debugPortEnable h nsid d) s =
        .next { s with presence := { used with debug := true }, book := counted 8
                       decided := s.decided ++ [answer h sOk (presenceDword { s with presence := used }) 0 []] }) ∧
      ∃ t, exec (.identityKeyReset h nsid d) s = .next t ∧
        t = { s with keys := t.keys, certificate := t.certificate, drawn := t.drawn, presence := used
                     book := counted 7 } ∧
        (keyOf t 0).typ = .identity ∧ (keyOf t 0).key.length = 32 ∧ (keyOf t 0).gen = (keyOf s 0).gen + 1 ∧
        (keyOf t 0).durable = false ∧ (keyOf t 0).waitHost = some h ∧ (∀ i, i ≠ 0 → keyOf t i = keyOf s i) ∧
        t.certificate = Config.certificate (keyOf t 0).key ((identityKey s).getD (keyOf t 0).key)) ∧
    (good → exec (.presenceClose h nsid d) s = .next { s with
      presence := { p with state := .idle, left := 0 }, decided := s.decided ++ [answer h sOk 0 0 []] })) ∧
  ∀ s : State,
    let p := s.presence
    (∀ low, let held := max low (p.deadline - 3000000000) + 100000000
      (p.state = .armed → held ≤ s.datum → held ≤ p.deadline →
      ∃ t, exec (.presenceWindowOpen low) s = .next t ∧ t = { s with presence := t.presence, book := t.book } ∧
        t.presence = { p with state := .opened, deadline := s.datum + 12000000000, left := 8 }) ∧
      (p.state ≠ .armed ∨ s.datum < held ∨ p.deadline < held → exec (.presenceWindowOpen low) s = .next s)) ∧
    exec .armingPeriodExpiry s = .next (if p.state = .armed ∧ p.deadline ≤ s.datum then
      { s with presence := { p with state := .idle, left := 0 } } else s) ∧
    exec .presenceWindowExpiry s = .next (if p.state = .opened ∧ p.deadline ≤ s.datum then
      { s with presence := { p with state := .idle, left := 0 } } else s) ∧
    (∀ low, exec (.serviceNChange low) s = .next { s with
      presence := { p with serviceLow := low, debug := p.debug && low } }) ∧
    (∀ b, s.datum < p.sealAt → exec (.sealLoopCheck b) s = .next s) ∧
    ∀ b : Bool, p.sealAt ≤ s.datum →
      let q := { p with sealA := !p.sealA, sealAt := s.datum + 1000000 }
      (b = p.sealA → p.sealNow = true → 1 ≤ p.matched → exec (.sealLoopCheck b) s = .next { s with
        presence := { q with mismatches := 0, matched := p.matched + 1, sealNow := false } }) ∧
      (b = p.sealA → p.sealNow = false → exec (.sealLoopCheck b) s = .next { s with
        presence := { q with mismatches := 0, matched := p.matched + 1 } }) ∧
      (b ≠ p.sealA → p.sealNow = false → p.mismatches = 0 → exec (.sealLoopCheck b) s = .next { s with
        presence := { q with mismatches := 1, matched := 0 } }) ∧
      (b ≠ p.sealA → p.sealNow = false → 1 ≤ p.mismatches → ∃ t, exec (.sealLoopCheck b) s = .next t ∧
        t.presence = { q with mismatches := p.mismatches + 1, matched := 0, sealNow := true, sealOpened := true } ∧
        Tab.getD t.book.counters 9 0 = min (2 ^ 32 - 1) (Tab.getD s.book.counters 9 0 + 1) ∧
        ∃ e ∈ t.faults.ring, e.cls = 0x37 ∧ e.outcome = 2 ∧ e.event = 7)

/-- R23, R533, R534, R537, R540, R542, R547, R549, R551, R568, R576: VAON power-good starts the datum at zero and
counts a power cycle; losing VAON ends what the always-on domain holds and keeps the fuses and the book's slots;
start-up, which TESTMODE holds back, latches PORT_MODE, takes the operating seconds from the newest slot of the field
book, boots the slot that is chosen, or stops when none boots or when VCORE fails to rise twice. Where the spec leaves
a choice it follows assumptions 37, 38, 109 and 117. -/
def Obligations.StartUpAndVaon : Prop :=
  ∀ s : State,
    (s.vaon = true → exec .vaonPowerGood s = .next s) ∧
    (s.vaon = false → exec .vaonPowerGood s = .next { s with
      vaon := true, datum := 0, copies := [], pcc := min (2 ^ 32 - 1) (s.pcc + 1) }) ∧
    (s.vaon = false → exec .vaonLoss s = .next s) ∧
    (s.vaon = true → ∃ t, exec .vaonLoss s = .next t ∧ t.vaon = false ∧ t.datum = 0 ∧ t.copies = [] ∧
      t.oscillator = false ∧ t.presence.state = .idle ∧ t.presence.debug = false ∧ t.supply = {} ∧ t.holdUp = {} ∧
      t.startup.minVersion = s.startup.minVersion ∧ t.pcc = s.pcc ∧
      t.opsec = 0 ∧ t.faults = {} ∧ t.book = { clearArea := s.book.clearArea } ∧
      (s.flushImage = none → t.bookSlots = s.bookSlots)) ∧
    (∀ i : StartupInput,
      let fresh := i.testMode = false ∧ s.vaon = true ∧ s.dump.poweredDown = false ∧ s.startup.done = false ∧ s.startup.stopped = false ∧
        s.startup.input = none
      (¬fresh → exec (.startupBegin i) s = .next s) ∧
      (fresh → i.goodSlots = [] → ∃ t, exec (.startupBegin i) s = .next t ∧ t.startup.stopped = true ∧
        t.startup.done = false ∧ (portOf t 0).present = true ∧ (portOf t 1).present = i.portMode ∧
        ∀ k im, i.bookBad = [] → s.bookSlots = [(k, im), (2 + k, im)] → t.opsec = max s.opsec im.1.flushOpsec) ∧
      (∀ x, fresh → i.bootGoldN = false → i.goodSlots.contains 1 = true → strapUsed i = some x → mediaFieldsOk x = true →
        i.temps = [] → i.brokenSensors = [] → i.pgFailures = 0 → s.thermal.sensors = [] → s.slices = [] →
        ∃ t, exec (.startupBegin i) s = .next t ∧ t.startup.done = true ∧ t.startup.stopped = false ∧
          t.startup.active = 1 ∧ t.startup.supActive = 1 ∧ t.startup.portMode = i.portMode) ∧
      (fresh → i.bootGoldN = false → i.goodSlots.contains 1 = true → i.temps = [] → i.brokenSensors = [] →
        0 < i.pgFailures → s.thermal.sensors = [] → ∃ t, exec (.startupBegin i) s = .next t ∧
          t.startup.done = false ∧ t.startup.active = 1 ∧
          t.vcore = { vset := 750, lastCmd := s.datum, checks := [(s.datum + 20000, false)], enabled := true })) ∧
    ∀ i : StartupInput, s.startup.input = some i → s.startup.stopped = false → s.startup.done = false →
      s.vcore.enabled = true → s.vcore.pgGood = false → s.vcore.pgFails < i.pgFailures →
      let failed := recordDetected { level := 3, cls := 0x0D, site := { kind := 11, index := 9 }, aux0 := s.vcore.vset
                                     aux1 := Config.freeNat s.drawn } { s with drawn := s.drawn + 1 }
      (s.vcore.pgFails = 0 → 1 < i.pgFailures → exec .vcorePgTimeout s =
        .next { failed with vcore := { s.vcore with pgFails := 1, enabled := true } }) ∧
      (1 ≤ s.vcore.pgFails → ∃ t, exec .vcorePgTimeout s = .next t ∧ t.startup.stopped = true ∧
        t.vcore.enabled = false ∧ t.faults = failed.faults)
end

