-- ==== Sys2Proof/Laws/Tab.lean ====
section
/-! SUPPORT. Tables: a read after a write of the same key gives the value written, a write leaves the other keys. -/

namespace Sys2Proof

variable {α : Type}

@[simp] theorem Tab.get?_nil (k : Nat) : Tab.get? ([] : Tab α) k = none := rfl

@[simp] theorem Tab.get?_set_self (t : Tab α) (k : Nat) (v : α) : Tab.get? (Tab.set t k v) k = some v := by
  induction t with
  | nil => simp [Tab.set, Tab.get?]
  | cons e t ih =>
    obtain ⟨j, w⟩ := e
    simp only [Tab.set]
    split
    · simp [Tab.get?]
    · split
      · simp [Tab.get?]
      · rename_i h _
        simp [Tab.get?, h, ih]

theorem Tab.get?_set_ne (t : Tab α) {k j : Nat} (v : α) (h : j ≠ k) : Tab.get? (Tab.set t k v) j = Tab.get? t j := by
  induction t with
  | nil => simp [Tab.set, Tab.get?, Ne.symm h]
  | cons e t ih =>
    obtain ⟨i, w⟩ := e
    simp only [Tab.set]
    split
    · rename_i hi
      subst hi
      simp [Tab.get?, Ne.symm h]
    · split
      · simp [Tab.get?, Ne.symm h]
      · simp [Tab.get?, ih]

theorem Tab.get?_set (t : Tab α) (k j : Nat) (v : α) :
    Tab.get? (Tab.set t k v) j = if j = k then some v else Tab.get? t j := by
  split
  · rename_i h
    rw [h, Tab.get?_set_self]
  · rename_i h
    exact Tab.get?_set_ne t v h

@[simp] theorem Tab.getD_set_self (t : Tab α) (k : Nat) (v d : α) : Tab.getD (Tab.set t k v) k d = v := by
  simp [Tab.getD]

theorem Tab.getD_set_ne (t : Tab α) {k j : Nat} (v d : α) (h : j ≠ k) :
    Tab.getD (Tab.set t k v) j d = Tab.getD t j d := by
  simp [Tab.getD, Tab.get?_set_ne t v h]

@[simp] theorem Tab.get?_erase_self (t : Tab α) (k : Nat) : Tab.get? (Tab.erase t k) k = none := by
  induction t with
  | nil => rfl
  | cons e t ih =>
    obtain ⟨j, w⟩ := e
    simp only [Tab.erase]
    split
    · exact ih
    · rename_i h
      simp [Tab.get?, h, ih]

theorem Tab.get?_erase_ne (t : Tab α) {k j : Nat} (h : j ≠ k) : Tab.get? (Tab.erase t k) j = Tab.get? t j := by
  induction t with
  | nil => rfl
  | cons e t ih =>
    obtain ⟨i, w⟩ := e
    simp only [Tab.erase]
    split
    · rename_i hi
      subst hi
      simp [Tab.get?, Ne.symm h, ih]
    · simp [Tab.get?, ih]

@[simp] theorem Tab.get?_modify_self (t : Tab α) (k : Nat) (f : α → α) :
    Tab.get? (Tab.modify t k f) k = (Tab.get? t k).map f := by
  unfold Tab.modify
  cases h : Tab.get? t k <;> simp [h]

theorem Tab.get?_modify_ne (t : Tab α) {k j : Nat} (f : α → α) (h : j ≠ k) :
    Tab.get? (Tab.modify t k f) j = Tab.get? t j := by
  unfold Tab.modify
  cases Tab.get? t k <;> simp [Tab.get?_set_ne _ _ h]

@[simp] theorem Tab.set_set (t : Tab α) (k : Nat) (v w : α) : Tab.set (Tab.set t k v) k w = Tab.set t k w := by
  induction t with
  | nil => simp [Tab.set]
  | cons e t ih =>
    obtain ⟨j, u⟩ := e
    by_cases h : j = k
    · simp [Tab.set, h]
    · by_cases h2 : k < j
      · simp [Tab.set, h, h2]
      · simp [Tab.set, h, h2, ih]

end Sys2Proof
end

