-- ==== Sys2Proof/Laws/Memory.lean ====
section
/-! SUPPORT. Sparse memory: the canonical form is kept by every operation, a read after a write of the same address
gives the byte written, and a write leaves the other addresses. -/

namespace Sys2Proof.Machine

@[simp] theorem Memory.read_nil (a : Nat) : Memory.read [] a = Memory.blank := rfl

@[simp] theorem Memory.wf_nil : Memory.wf [] = true := rfl

theorem Memory.read_write (m : Memory) (a x : Nat) (b : Byte) :
    (m.write a b).read x = if x = a then b else m.read x := by
  unfold Memory.write Memory.read
  by_cases hb : b = Memory.blank
  · by_cases h : x = a
    · simp [hb, h]
    · simp [hb, h, Tab.get?_erase_ne m h]
  · by_cases h : x = a
    · simp [hb, h]
    · simp [hb, h, Tab.get?_set_ne m b h]

theorem Memory.wfFrom_mono {lo hi : Nat} (m : Memory) (h : lo ≤ hi) (w : Memory.wfFrom hi m = true) :
    Memory.wfFrom lo m = true := by
  cases m with
  | nil => rfl
  | cons e t =>
    simp only [Memory.wfFrom, Bool.and_eq_true, decide_eq_true_eq] at w ⊢
    exact ⟨⟨by omega, w.1.2⟩, w.2⟩

theorem Memory.wfFrom_erase (m : Memory) (k lo : Nat) (w : Memory.wfFrom lo m = true) :
    Memory.wfFrom lo (Tab.erase m k) = true := by
  induction m generalizing lo with
  | nil => rfl
  | cons e t ih =>
    obtain ⟨a, b⟩ := e
    simp only [Memory.wfFrom, Bool.and_eq_true, decide_eq_true_eq] at w
    simp only [Tab.erase]
    split
    · exact ih lo (Memory.wfFrom_mono t (by omega) w.2)
    · simp only [Memory.wfFrom, Bool.and_eq_true, decide_eq_true_eq]
      exact ⟨w.1, ih _ w.2⟩

theorem Memory.wfFrom_set (m : Memory) (k lo : Nat) (b : Byte) (hb : b ≠ Memory.blank) (hk : lo ≤ k)
    (w : Memory.wfFrom lo m = true) : Memory.wfFrom lo (Tab.set m k b) = true := by
  induction m generalizing lo with
  | nil => simp [Tab.set, Memory.wfFrom, hb, hk]
  | cons e t ih =>
    obtain ⟨a, c⟩ := e
    simp only [Memory.wfFrom, Bool.and_eq_true, decide_eq_true_eq] at w
    simp only [Tab.set]
    split
    · rename_i h
      subst h
      simp [Memory.wfFrom, hb, hk, w.2]
    · split
      · simp only [Memory.wfFrom, Bool.and_eq_true, decide_eq_true_eq]
        exact ⟨⟨hk, hb⟩, ⟨by omega, w.1.2⟩, w.2⟩
      · simp only [Memory.wfFrom, Bool.and_eq_true, decide_eq_true_eq]
        exact ⟨w.1, ih (a + 1) (by omega) w.2⟩

theorem Memory.wf_write (m : Memory) (a : Nat) (b : Byte) (w : m.wf = true) : (m.write a b).wf = true := by
  unfold Memory.write
  split
  · exact Memory.wfFrom_erase m a 0 w
  · rename_i h
    exact Memory.wfFrom_set m a 0 b h (Nat.zero_le a) w

theorem Memory.wf_writeBytes (bs : List Byte) (m : Memory) (a : Nat) (w : m.wf = true) :
    (m.writeBytes a bs).wf = true := by
  induction bs generalizing m a with
  | nil => exact w
  | cons b bs ih => exact ih _ _ (Memory.wf_write m a b w)

theorem Memory.read_writeBytes_lt (bs : List Byte) (m : Memory) (a x : Nat) (h : x < a) :
    (m.writeBytes a bs).read x = m.read x := by
  induction bs generalizing m a with
  | nil => rfl
  | cons b bs ih => rw [Memory.writeBytes, ih _ _ (by omega), Memory.read_write, if_neg (by omega)]

theorem Memory.read_writeBytes_ge (bs : List Byte) (m : Memory) (a x : Nat) (h : a + bs.length ≤ x) :
    (m.writeBytes a bs).read x = m.read x := by
  induction bs generalizing m a with
  | nil => rfl
  | cons b bs ih =>
    rw [List.length_cons] at h
    rw [Memory.writeBytes, ih _ _ (by omega), Memory.read_write, if_neg (by omega)]

/-- What was written reads back. -/
theorem Memory.readBytes_writeBytes (bs : List Byte) (m : Memory) (a : Nat) :
    (m.writeBytes a bs).readBytes a bs.length = bs := by
  induction bs generalizing m a with
  | nil => rfl
  | cons b bs ih =>
    rw [List.length_cons, Memory.readBytes, Memory.writeBytes, ih, Memory.read_writeBytes_lt _ _ _ _ (by omega),
      Memory.read_write, if_pos rfl]

end Sys2Proof.Machine
end

