-- ==== Sys2Proof/Laws/State.lean ====
section
/-! SUPPORT. What the updates of State leave as it was, field by field, and what their readers see afterwards. -/

namespace Sys2Proof.Machine

/-! ### Readers after updates -/

@[simp] theorem coreOf_setCore_self (s : State) (c : Nat) (k : Core) : coreOf (setCore s c k) c = k := by
  simp [coreOf, setCore]

theorem coreOf_setCore_ne (s : State) {c j : Nat} (k : Core) (h : j ≠ c) : coreOf (setCore s c k) j = coreOf s j := by
  simp [coreOf, setCore, Tab.getD_set_ne _ _ _ h]

@[simp] theorem taskOf_setTask_self (s : State) (t : Nat) (k : Task) : taskOf (setTask s t k) t = some k := by
  simp [taskOf, setTask]

theorem taskOf_setTask_ne (s : State) {t j : Nat} (k : Task) (h : j ≠ t) : taskOf (setTask s t k) j = taskOf s j := by
  simp [taskOf, setTask, Tab.get?_set_ne _ _ h]

@[simp] theorem taskOf_modTask_self (s : State) (t : Nat) (f : Task → Task) :
    taskOf (modTask t f s) t = (taskOf s t).map f := by
  simp [taskOf, modTask]

theorem taskOf_modTask_ne (s : State) {t j : Nat} (f : Task → Task) (h : j ≠ t) :
    taskOf (modTask t f s) j = taskOf s j := by
  simp [taskOf, modTask, Tab.get?_modify_ne _ _ h]

@[simp] theorem taskOf_setCore (s : State) (c t : Nat) (k : Core) : taskOf (setCore s c k) t = taskOf s t := rfl

@[simp] theorem coreOf_setTask (s : State) (c t : Nat) (k : Task) : coreOf (setTask s t k) c = coreOf s c := rfl

@[simp] theorem coreOf_modTask (s : State) (c t : Nat) (f : Task → Task) : coreOf (modTask t f s) c = coreOf s c := rfl

@[simp] theorem region_setRegion_self (s : State) (r : Nat) (g : Region) : region (setRegion s r g) r = g := by
  simp [region, setRegion]

@[simp] theorem portOf_setPort_self (s : State) (p : PortId) (q : HostPort) : portOf (setPort s p q) p = q := by
  simp [portOf, setPort]

@[simp] theorem sliceOf_setSlice_self (s : State) (n : Nat) (x : Slice) : sliceOf (setSlice s n x) n = x := by
  simp [sliceOf, setSlice]

@[simp] theorem nsOf_setNs_self (s : State) (n : Nat) (x : Namespace) : nsOf (setNs n x s) n = some x := by
  simp [nsOf, setNs]

/-! ### `setCore` -/

@[simp] theorem setCore_pending (s : State) (c : Nat) (k : Core) :
    (setCore s c k).pending = s.pending := rfl
@[simp] theorem setCore_datum (s : State) (c : Nat) (k : Core) :
    (setCore s c k).datum = s.datum := rfl
@[simp] theorem setCore_vaon (s : State) (c : Nat) (k : Core) :
    (setCore s c k).vaon = s.vaon := rfl
@[simp] theorem setCore_oscillator (s : State) (c : Nat) (k : Core) :
    (setCore s c k).oscillator = s.oscillator := rfl
@[simp] theorem setCore_copies (s : State) (c : Nat) (k : Core) :
    (setCore s c k).copies = s.copies := rfl
@[simp] theorem setCore_opsec (s : State) (c : Nat) (k : Core) :
    (setCore s c k).opsec = s.opsec := rfl
@[simp] theorem setCore_secAt (s : State) (c : Nat) (k : Core) :
    (setCore s c k).secAt = s.secAt := rfl
@[simp] theorem setCore_pcc (s : State) (c : Nat) (k : Core) :
    (setCore s c k).pcc = s.pcc := rfl
@[simp] theorem setCore_drawn (s : State) (c : Nat) (k : Core) :
    (setCore s c k).drawn = s.drawn := rfl
@[simp] theorem setCore_regions (s : State) (c : Nat) (k : Core) :
    (setCore s c k).regions = s.regions := rfl
@[simp] theorem setCore_domains (s : State) (c : Nat) (k : Core) :
    (setCore s c k).domains = s.domains := rfl
@[simp] theorem setCore_powerQueue (s : State) (c : Nat) (k : Core) :
    (setCore s c k).powerQueue = s.powerQueue := rfl
@[simp] theorem setCore_arbiters (s : State) (c : Nat) (k : Core) :
    (setCore s c k).arbiters = s.arbiters := rfl
@[simp] theorem setCore_dispatched (s : State) (c : Nat) (k : Core) :
    (setCore s c k).dispatched = s.dispatched := rfl
@[simp] theorem setCore_ledger (s : State) (c : Nat) (k : Core) :
    (setCore s c k).ledger = s.ledger := rfl
@[simp] theorem setCore_late (s : State) (c : Nat) (k : Core) :
    (setCore s c k).late = s.late := rfl
@[simp] theorem setCore_vcore (s : State) (c : Nat) (k : Core) :
    (setCore s c k).vcore = s.vcore := rfl
@[simp] theorem setCore_base (s : State) (c : Nat) (k : Core) :
    (setCore s c k).base = s.base := rfl
@[simp] theorem setCore_ports (s : State) (c : Nat) (k : Core) :
    (setCore s c k).ports = s.ports := rfl
@[simp] theorem setCore_features (s : State) (c : Nat) (k : Core) :
    (setCore s c k).features = s.features := rfl
@[simp] theorem setCore_mi (s : State) (c : Nat) (k : Core) :
    (setCore s c k).mi = s.mi := rfl
@[simp] theorem setCore_held (s : State) (c : Nat) (k : Core) :
    (setCore s c k).held = s.held := rfl
@[simp] theorem setCore_decided (s : State) (c : Nat) (k : Core) :
    (setCore s c k).decided = s.decided := rfl
@[simp] theorem setCore_writes (s : State) (c : Nat) (k : Core) :
    (setCore s c k).writes = s.writes := rfl
@[simp] theorem setCore_lines (s : State) (c : Nat) (k : Core) :
    (setCore s c k).lines = s.lines := rfl
@[simp] theorem setCore_holdUp (s : State) (c : Nat) (k : Core) :
    (setCore s c k).holdUp = s.holdUp := rfl
@[simp] theorem setCore_dump (s : State) (c : Nat) (k : Core) :
    (setCore s c k).dump = s.dump := rfl
@[simp] theorem setCore_resvs (s : State) (c : Nat) (k : Core) :
    (setCore s c k).resvs = s.resvs := rfl
@[simp] theorem setCore_resvGen (s : State) (c : Nat) (k : Core) :
    (setCore s c k).resvGen = s.resvGen := rfl
@[simp] theorem setCore_namespaces (s : State) (c : Nat) (k : Core) :
    (setCore s c k).namespaces = s.namespaces := rfl
@[simp] theorem setCore_turns (s : State) (c : Nat) (k : Core) :
    (setCore s c k).turns = s.turns := rfl
@[simp] theorem setCore_nsMade (s : State) (c : Nat) (k : Core) :
    (setCore s c k).nsMade = s.nsMade := rfl
@[simp] theorem setCore_media (s : State) (c : Nat) (k : Core) :
    (setCore s c k).media = s.media := rfl
@[simp] theorem setCore_smart (s : State) (c : Nat) (k : Core) :
    (setCore s c k).smart = s.smart := rfl
@[simp] theorem setCore_dram (s : State) (c : Nat) (k : Core) :
    (setCore s c k).dram = s.dram := rfl
@[simp] theorem setCore_setU (s : State) (c : Nat) (k : Core) :
    (setCore s c k).setU = s.setU := rfl
@[simp] theorem setCore_tasks (s : State) (c : Nat) (k : Core) :
    (setCore s c k).tasks = s.tasks := rfl
@[simp] theorem setCore_gens (s : State) (c : Nat) (k : Core) :
    (setCore s c k).gens = s.gens := rfl
@[simp] theorem setCore_flows (s : State) (c : Nat) (k : Core) :
    (setCore s c k).flows = s.flows := rfl
@[simp] theorem setCore_poolTab (s : State) (c : Nat) (k : Core) :
    (setCore s c k).poolTab = s.poolTab := rfl
@[simp] theorem setCore_progs (s : State) (c : Nat) (k : Core) :
    (setCore s c k).progs = s.progs := rfl
@[simp] theorem setCore_invs (s : State) (c : Nat) (k : Core) :
    (setCore s c k).invs = s.invs := rfl
@[simp] theorem setCore_waitingInvokes (s : State) (c : Nat) (k : Core) :
    (setCore s c k).waitingInvokes = s.waitingInvokes := rfl
@[simp] theorem setCore_scans (s : State) (c : Nat) (k : Core) :
    (setCore s c k).scans = s.scans := rfl
@[simp] theorem setCore_accounts (s : State) (c : Nat) (k : Core) :
    (setCore s c k).accounts = s.accounts := rfl
@[simp] theorem setCore_results (s : State) (c : Nat) (k : Core) :
    (setCore s c k).results = s.results := rfl
@[simp] theorem setCore_resultGens (s : State) (c : Nat) (k : Core) :
    (setCore s c k).resultGens = s.resultGens := rfl
@[simp] theorem setCore_tables (s : State) (c : Nat) (k : Core) :
    (setCore s c k).tables = s.tables := rfl
@[simp] theorem setCore_bankReady (s : State) (c : Nat) (k : Core) :
    (setCore s c k).bankReady = s.bankReady := rfl
@[simp] theorem setCore_sets (s : State) (c : Nat) (k : Core) :
    (setCore s c k).sets = s.sets := rfl
@[simp] theorem setCore_oldSets (s : State) (c : Nat) (k : Core) :
    (setCore s c k).oldSets = s.oldSets := rfl
@[simp] theorem setCore_filters (s : State) (c : Nat) (k : Core) :
    (setCore s c k).filters = s.filters := rfl
@[simp] theorem setCore_contexts (s : State) (c : Nat) (k : Core) :
    (setCore s c k).contexts = s.contexts := rfl
@[simp] theorem setCore_sessions (s : State) (c : Nat) (k : Core) :
    (setCore s c k).sessions = s.sessions := rfl
@[simp] theorem setCore_keys (s : State) (c : Nat) (k : Core) :
    (setCore s c k).keys = s.keys := rfl
@[simp] theorem setCore_certificate (s : State) (c : Nat) (k : Core) :
    (setCore s c k).certificate = s.certificate := rfl
@[simp] theorem setCore_slices (s : State) (c : Nat) (k : Core) :
    (setCore s c k).slices = s.slices := rfl
@[simp] theorem setCore_sliceGen (s : State) (c : Nat) (k : Core) :
    (setCore s c k).sliceGen = s.sliceGen := rfl
@[simp] theorem setCore_scrubMib (s : State) (c : Nat) (k : Core) :
    (setCore s c k).scrubMib = s.scrubMib := rfl
@[simp] theorem setCore_stu (s : State) (c : Nat) (k : Core) :
    (setCore s c k).stu = s.stu := rfl
@[simp] theorem setCore_fwPorts (s : State) (c : Nat) (k : Core) :
    (setCore s c k).fwPorts = s.fwPorts := rfl
@[simp] theorem setCore_thermal (s : State) (c : Nat) (k : Core) :
    (setCore s c k).thermal = s.thermal := rfl
@[simp] theorem setCore_supply (s : State) (c : Nat) (k : Core) :
    (setCore s c k).supply = s.supply := rfl
@[simp] theorem setCore_faults (s : State) (c : Nat) (k : Core) :
    (setCore s c k).faults = s.faults := rfl
@[simp] theorem setCore_book (s : State) (c : Nat) (k : Core) :
    (setCore s c k).book = s.book := rfl
@[simp] theorem setCore_flushImage (s : State) (c : Nat) (k : Core) :
    (setCore s c k).flushImage = s.flushImage := rfl
@[simp] theorem setCore_bookSlots (s : State) (c : Nat) (k : Core) :
    (setCore s c k).bookSlots = s.bookSlots := rfl
@[simp] theorem setCore_presence (s : State) (c : Nat) (k : Core) :
    (setCore s c k).presence = s.presence := rfl
@[simp] theorem setCore_startup (s : State) (c : Nat) (k : Core) :
    (setCore s c k).startup = s.startup := rfl

/-! ### `setTask` -/

@[simp] theorem setTask_pending (s : State) (t : Nat) (k : Task) :
    (setTask s t k).pending = s.pending := rfl
@[simp] theorem setTask_datum (s : State) (t : Nat) (k : Task) :
    (setTask s t k).datum = s.datum := rfl
@[simp] theorem setTask_vaon (s : State) (t : Nat) (k : Task) :
    (setTask s t k).vaon = s.vaon := rfl
@[simp] theorem setTask_oscillator (s : State) (t : Nat) (k : Task) :
    (setTask s t k).oscillator = s.oscillator := rfl
@[simp] theorem setTask_copies (s : State) (t : Nat) (k : Task) :
    (setTask s t k).copies = s.copies := rfl
@[simp] theorem setTask_opsec (s : State) (t : Nat) (k : Task) :
    (setTask s t k).opsec = s.opsec := rfl
@[simp] theorem setTask_secAt (s : State) (t : Nat) (k : Task) :
    (setTask s t k).secAt = s.secAt := rfl
@[simp] theorem setTask_pcc (s : State) (t : Nat) (k : Task) :
    (setTask s t k).pcc = s.pcc := rfl
@[simp] theorem setTask_drawn (s : State) (t : Nat) (k : Task) :
    (setTask s t k).drawn = s.drawn := rfl
@[simp] theorem setTask_regions (s : State) (t : Nat) (k : Task) :
    (setTask s t k).regions = s.regions := rfl
@[simp] theorem setTask_domains (s : State) (t : Nat) (k : Task) :
    (setTask s t k).domains = s.domains := rfl
@[simp] theorem setTask_powerQueue (s : State) (t : Nat) (k : Task) :
    (setTask s t k).powerQueue = s.powerQueue := rfl
@[simp] theorem setTask_arbiters (s : State) (t : Nat) (k : Task) :
    (setTask s t k).arbiters = s.arbiters := rfl
@[simp] theorem setTask_dispatched (s : State) (t : Nat) (k : Task) :
    (setTask s t k).dispatched = s.dispatched := rfl
@[simp] theorem setTask_ledger (s : State) (t : Nat) (k : Task) :
    (setTask s t k).ledger = s.ledger := rfl
@[simp] theorem setTask_late (s : State) (t : Nat) (k : Task) :
    (setTask s t k).late = s.late := rfl
@[simp] theorem setTask_vcore (s : State) (t : Nat) (k : Task) :
    (setTask s t k).vcore = s.vcore := rfl
@[simp] theorem setTask_base (s : State) (t : Nat) (k : Task) :
    (setTask s t k).base = s.base := rfl
@[simp] theorem setTask_ports (s : State) (t : Nat) (k : Task) :
    (setTask s t k).ports = s.ports := rfl
@[simp] theorem setTask_features (s : State) (t : Nat) (k : Task) :
    (setTask s t k).features = s.features := rfl
@[simp] theorem setTask_mi (s : State) (t : Nat) (k : Task) :
    (setTask s t k).mi = s.mi := rfl
@[simp] theorem setTask_held (s : State) (t : Nat) (k : Task) :
    (setTask s t k).held = s.held := rfl
@[simp] theorem setTask_decided (s : State) (t : Nat) (k : Task) :
    (setTask s t k).decided = s.decided := rfl
@[simp] theorem setTask_writes (s : State) (t : Nat) (k : Task) :
    (setTask s t k).writes = s.writes := rfl
@[simp] theorem setTask_lines (s : State) (t : Nat) (k : Task) :
    (setTask s t k).lines = s.lines := rfl
@[simp] theorem setTask_holdUp (s : State) (t : Nat) (k : Task) :
    (setTask s t k).holdUp = s.holdUp := rfl
@[simp] theorem setTask_dump (s : State) (t : Nat) (k : Task) :
    (setTask s t k).dump = s.dump := rfl
@[simp] theorem setTask_resvs (s : State) (t : Nat) (k : Task) :
    (setTask s t k).resvs = s.resvs := rfl
@[simp] theorem setTask_resvGen (s : State) (t : Nat) (k : Task) :
    (setTask s t k).resvGen = s.resvGen := rfl
@[simp] theorem setTask_namespaces (s : State) (t : Nat) (k : Task) :
    (setTask s t k).namespaces = s.namespaces := rfl
@[simp] theorem setTask_turns (s : State) (t : Nat) (k : Task) :
    (setTask s t k).turns = s.turns := rfl
@[simp] theorem setTask_nsMade (s : State) (t : Nat) (k : Task) :
    (setTask s t k).nsMade = s.nsMade := rfl
@[simp] theorem setTask_media (s : State) (t : Nat) (k : Task) :
    (setTask s t k).media = s.media := rfl
@[simp] theorem setTask_smart (s : State) (t : Nat) (k : Task) :
    (setTask s t k).smart = s.smart := rfl
@[simp] theorem setTask_dram (s : State) (t : Nat) (k : Task) :
    (setTask s t k).dram = s.dram := rfl
@[simp] theorem setTask_setU (s : State) (t : Nat) (k : Task) :
    (setTask s t k).setU = s.setU := rfl
@[simp] theorem setTask_cores (s : State) (t : Nat) (k : Task) :
    (setTask s t k).cores = s.cores := rfl
@[simp] theorem setTask_gens (s : State) (t : Nat) (k : Task) :
    (setTask s t k).gens = s.gens := rfl
@[simp] theorem setTask_flows (s : State) (t : Nat) (k : Task) :
    (setTask s t k).flows = s.flows := rfl
@[simp] theorem setTask_poolTab (s : State) (t : Nat) (k : Task) :
    (setTask s t k).poolTab = s.poolTab := rfl
@[simp] theorem setTask_progs (s : State) (t : Nat) (k : Task) :
    (setTask s t k).progs = s.progs := rfl
@[simp] theorem setTask_invs (s : State) (t : Nat) (k : Task) :
    (setTask s t k).invs = s.invs := rfl
@[simp] theorem setTask_waitingInvokes (s : State) (t : Nat) (k : Task) :
    (setTask s t k).waitingInvokes = s.waitingInvokes := rfl
@[simp] theorem setTask_scans (s : State) (t : Nat) (k : Task) :
    (setTask s t k).scans = s.scans := rfl
@[simp] theorem setTask_accounts (s : State) (t : Nat) (k : Task) :
    (setTask s t k).accounts = s.accounts := rfl
@[simp] theorem setTask_results (s : State) (t : Nat) (k : Task) :
    (setTask s t k).results = s.results := rfl
@[simp] theorem setTask_resultGens (s : State) (t : Nat) (k : Task) :
    (setTask s t k).resultGens = s.resultGens := rfl
@[simp] theorem setTask_tables (s : State) (t : Nat) (k : Task) :
    (setTask s t k).tables = s.tables := rfl
@[simp] theorem setTask_bankReady (s : State) (t : Nat) (k : Task) :
    (setTask s t k).bankReady = s.bankReady := rfl
@[simp] theorem setTask_sets (s : State) (t : Nat) (k : Task) :
    (setTask s t k).sets = s.sets := rfl
@[simp] theorem setTask_oldSets (s : State) (t : Nat) (k : Task) :
    (setTask s t k).oldSets = s.oldSets := rfl
@[simp] theorem setTask_filters (s : State) (t : Nat) (k : Task) :
    (setTask s t k).filters = s.filters := rfl
@[simp] theorem setTask_contexts (s : State) (t : Nat) (k : Task) :
    (setTask s t k).contexts = s.contexts := rfl
@[simp] theorem setTask_sessions (s : State) (t : Nat) (k : Task) :
    (setTask s t k).sessions = s.sessions := rfl
@[simp] theorem setTask_keys (s : State) (t : Nat) (k : Task) :
    (setTask s t k).keys = s.keys := rfl
@[simp] theorem setTask_certificate (s : State) (t : Nat) (k : Task) :
    (setTask s t k).certificate = s.certificate := rfl
@[simp] theorem setTask_slices (s : State) (t : Nat) (k : Task) :
    (setTask s t k).slices = s.slices := rfl
@[simp] theorem setTask_sliceGen (s : State) (t : Nat) (k : Task) :
    (setTask s t k).sliceGen = s.sliceGen := rfl
@[simp] theorem setTask_scrubMib (s : State) (t : Nat) (k : Task) :
    (setTask s t k).scrubMib = s.scrubMib := rfl
@[simp] theorem setTask_stu (s : State) (t : Nat) (k : Task) :
    (setTask s t k).stu = s.stu := rfl
@[simp] theorem setTask_fwPorts (s : State) (t : Nat) (k : Task) :
    (setTask s t k).fwPorts = s.fwPorts := rfl
@[simp] theorem setTask_thermal (s : State) (t : Nat) (k : Task) :
    (setTask s t k).thermal = s.thermal := rfl
@[simp] theorem setTask_supply (s : State) (t : Nat) (k : Task) :
    (setTask s t k).supply = s.supply := rfl
@[simp] theorem setTask_faults (s : State) (t : Nat) (k : Task) :
    (setTask s t k).faults = s.faults := rfl
@[simp] theorem setTask_book (s : State) (t : Nat) (k : Task) :
    (setTask s t k).book = s.book := rfl
@[simp] theorem setTask_flushImage (s : State) (t : Nat) (k : Task) :
    (setTask s t k).flushImage = s.flushImage := rfl
@[simp] theorem setTask_bookSlots (s : State) (t : Nat) (k : Task) :
    (setTask s t k).bookSlots = s.bookSlots := rfl
@[simp] theorem setTask_presence (s : State) (t : Nat) (k : Task) :
    (setTask s t k).presence = s.presence := rfl
@[simp] theorem setTask_startup (s : State) (t : Nat) (k : Task) :
    (setTask s t k).startup = s.startup := rfl

/-! ### `modTask` -/

@[simp] theorem modTask_pending (t : Nat) (f : Task → Task) (s : State) :
    (modTask t f s).pending = s.pending := rfl
@[simp] theorem modTask_datum (t : Nat) (f : Task → Task) (s : State) :
    (modTask t f s).datum = s.datum := rfl
@[simp] theorem modTask_vaon (t : Nat) (f : Task → Task) (s : State) :
    (modTask t f s).vaon = s.vaon := rfl
@[simp] theorem modTask_oscillator (t : Nat) (f : Task → Task) (s : State) :
    (modTask t f s).oscillator = s.oscillator := rfl
@[simp] theorem modTask_copies (t : Nat) (f : Task → Task) (s : State) :
    (modTask t f s).copies = s.copies := rfl
@[simp] theorem modTask_opsec (t : Nat) (f : Task → Task) (s : State) :
    (modTask t f s).opsec = s.opsec := rfl
@[simp] theorem modTask_secAt (t : Nat) (f : Task → Task) (s : State) :
    (modTask t f s).secAt = s.secAt := rfl
@[simp] theorem modTask_pcc (t : Nat) (f : Task → Task) (s : State) :
    (modTask t f s).pcc = s.pcc := rfl
@[simp] theorem modTask_drawn (t : Nat) (f : Task → Task) (s : State) :
    (modTask t f s).drawn = s.drawn := rfl
@[simp] theorem modTask_regions (t : Nat) (f : Task → Task) (s : State) :
    (modTask t f s).regions = s.regions := rfl
@[simp] theorem modTask_domains (t : Nat) (f : Task → Task) (s : State) :
    (modTask t f s).domains = s.domains := rfl
@[simp] theorem modTask_powerQueue (t : Nat) (f : Task → Task) (s : State) :
    (modTask t f s).powerQueue = s.powerQueue := rfl
@[simp] theorem modTask_arbiters (t : Nat) (f : Task → Task) (s : State) :
    (modTask t f s).arbiters = s.arbiters := rfl
@[simp] theorem modTask_dispatched (t : Nat) (f : Task → Task) (s : State) :
    (modTask t f s).dispatched = s.dispatched := rfl
@[simp] theorem modTask_ledger (t : Nat) (f : Task → Task) (s : State) :
    (modTask t f s).ledger = s.ledger := rfl
@[simp] theorem modTask_late (t : Nat) (f : Task → Task) (s : State) :
    (modTask t f s).late = s.late := rfl
@[simp] theorem modTask_vcore (t : Nat) (f : Task → Task) (s : State) :
    (modTask t f s).vcore = s.vcore := rfl
@[simp] theorem modTask_base (t : Nat) (f : Task → Task) (s : State) :
    (modTask t f s).base = s.base := rfl
@[simp] theorem modTask_ports (t : Nat) (f : Task → Task) (s : State) :
    (modTask t f s).ports = s.ports := rfl
@[simp] theorem modTask_features (t : Nat) (f : Task → Task) (s : State) :
    (modTask t f s).features = s.features := rfl
@[simp] theorem modTask_mi (t : Nat) (f : Task → Task) (s : State) :
    (modTask t f s).mi = s.mi := rfl
@[simp] theorem modTask_held (t : Nat) (f : Task → Task) (s : State) :
    (modTask t f s).held = s.held := rfl
@[simp] theorem modTask_decided (t : Nat) (f : Task → Task) (s : State) :
    (modTask t f s).decided = s.decided := rfl
@[simp] theorem modTask_writes (t : Nat) (f : Task → Task) (s : State) :
    (modTask t f s).writes = s.writes := rfl
@[simp] theorem modTask_lines (t : Nat) (f : Task → Task) (s : State) :
    (modTask t f s).lines = s.lines := rfl
@[simp] theorem modTask_holdUp (t : Nat) (f : Task → Task) (s : State) :
    (modTask t f s).holdUp = s.holdUp := rfl
@[simp] theorem modTask_dump (t : Nat) (f : Task → Task) (s : State) :
    (modTask t f s).dump = s.dump := rfl
@[simp] theorem modTask_resvs (t : Nat) (f : Task → Task) (s : State) :
    (modTask t f s).resvs = s.resvs := rfl
@[simp] theorem modTask_resvGen (t : Nat) (f : Task → Task) (s : State) :
    (modTask t f s).resvGen = s.resvGen := rfl
@[simp] theorem modTask_namespaces (t : Nat) (f : Task → Task) (s : State) :
    (modTask t f s).namespaces = s.namespaces := rfl
@[simp] theorem modTask_turns (t : Nat) (f : Task → Task) (s : State) :
    (modTask t f s).turns = s.turns := rfl
@[simp] theorem modTask_nsMade (t : Nat) (f : Task → Task) (s : State) :
    (modTask t f s).nsMade = s.nsMade := rfl
@[simp] theorem modTask_media (t : Nat) (f : Task → Task) (s : State) :
    (modTask t f s).media = s.media := rfl
@[simp] theorem modTask_smart (t : Nat) (f : Task → Task) (s : State) :
    (modTask t f s).smart = s.smart := rfl
@[simp] theorem modTask_dram (t : Nat) (f : Task → Task) (s : State) :
    (modTask t f s).dram = s.dram := rfl
@[simp] theorem modTask_setU (t : Nat) (f : Task → Task) (s : State) :
    (modTask t f s).setU = s.setU := rfl
@[simp] theorem modTask_cores (t : Nat) (f : Task → Task) (s : State) :
    (modTask t f s).cores = s.cores := rfl
@[simp] theorem modTask_gens (t : Nat) (f : Task → Task) (s : State) :
    (modTask t f s).gens = s.gens := rfl
@[simp] theorem modTask_flows (t : Nat) (f : Task → Task) (s : State) :
    (modTask t f s).flows = s.flows := rfl
@[simp] theorem modTask_poolTab (t : Nat) (f : Task → Task) (s : State) :
    (modTask t f s).poolTab = s.poolTab := rfl
@[simp] theorem modTask_progs (t : Nat) (f : Task → Task) (s : State) :
    (modTask t f s).progs = s.progs := rfl
@[simp] theorem modTask_invs (t : Nat) (f : Task → Task) (s : State) :
    (modTask t f s).invs = s.invs := rfl
@[simp] theorem modTask_waitingInvokes (t : Nat) (f : Task → Task) (s : State) :
    (modTask t f s).waitingInvokes = s.waitingInvokes := rfl
@[simp] theorem modTask_scans (t : Nat) (f : Task → Task) (s : State) :
    (modTask t f s).scans = s.scans := rfl
@[simp] theorem modTask_accounts (t : Nat) (f : Task → Task) (s : State) :
    (modTask t f s).accounts = s.accounts := rfl
@[simp] theorem modTask_results (t : Nat) (f : Task → Task) (s : State) :
    (modTask t f s).results = s.results := rfl
@[simp] theorem modTask_resultGens (t : Nat) (f : Task → Task) (s : State) :
    (modTask t f s).resultGens = s.resultGens := rfl
@[simp] theorem modTask_tables (t : Nat) (f : Task → Task) (s : State) :
    (modTask t f s).tables = s.tables := rfl
@[simp] theorem modTask_bankReady (t : Nat) (f : Task → Task) (s : State) :
    (modTask t f s).bankReady = s.bankReady := rfl
@[simp] theorem modTask_sets (t : Nat) (f : Task → Task) (s : State) :
    (modTask t f s).sets = s.sets := rfl
@[simp] theorem modTask_oldSets (t : Nat) (f : Task → Task) (s : State) :
    (modTask t f s).oldSets = s.oldSets := rfl
@[simp] theorem modTask_filters (t : Nat) (f : Task → Task) (s : State) :
    (modTask t f s).filters = s.filters := rfl
@[simp] theorem modTask_contexts (t : Nat) (f : Task → Task) (s : State) :
    (modTask t f s).contexts = s.contexts := rfl
@[simp] theorem modTask_sessions (t : Nat) (f : Task → Task) (s : State) :
    (modTask t f s).sessions = s.sessions := rfl
@[simp] theorem modTask_keys (t : Nat) (f : Task → Task) (s : State) :
    (modTask t f s).keys = s.keys := rfl
@[simp] theorem modTask_certificate (t : Nat) (f : Task → Task) (s : State) :
    (modTask t f s).certificate = s.certificate := rfl
@[simp] theorem modTask_slices (t : Nat) (f : Task → Task) (s : State) :
    (modTask t f s).slices = s.slices := rfl
@[simp] theorem modTask_sliceGen (t : Nat) (f : Task → Task) (s : State) :
    (modTask t f s).sliceGen = s.sliceGen := rfl
@[simp] theorem modTask_scrubMib (t : Nat) (f : Task → Task) (s : State) :
    (modTask t f s).scrubMib = s.scrubMib := rfl
@[simp] theorem modTask_stu (t : Nat) (f : Task → Task) (s : State) :
    (modTask t f s).stu = s.stu := rfl
@[simp] theorem modTask_fwPorts (t : Nat) (f : Task → Task) (s : State) :
    (modTask t f s).fwPorts = s.fwPorts := rfl
@[simp] theorem modTask_thermal (t : Nat) (f : Task → Task) (s : State) :
    (modTask t f s).thermal = s.thermal := rfl
@[simp] theorem modTask_supply (t : Nat) (f : Task → Task) (s : State) :
    (modTask t f s).supply = s.supply := rfl
@[simp] theorem modTask_faults (t : Nat) (f : Task → Task) (s : State) :
    (modTask t f s).faults = s.faults := rfl
@[simp] theorem modTask_book (t : Nat) (f : Task → Task) (s : State) :
    (modTask t f s).book = s.book := rfl
@[simp] theorem modTask_flushImage (t : Nat) (f : Task → Task) (s : State) :
    (modTask t f s).flushImage = s.flushImage := rfl
@[simp] theorem modTask_bookSlots (t : Nat) (f : Task → Task) (s : State) :
    (modTask t f s).bookSlots = s.bookSlots := rfl
@[simp] theorem modTask_presence (t : Nat) (f : Task → Task) (s : State) :
    (modTask t f s).presence = s.presence := rfl
@[simp] theorem modTask_startup (t : Nat) (f : Task → Task) (s : State) :
    (modTask t f s).startup = s.startup := rfl

/-! ### `setRegion` -/

@[simp] theorem setRegion_pending (s : State) (r : Nat) (g : Region) :
    (setRegion s r g).pending = s.pending := rfl
@[simp] theorem setRegion_datum (s : State) (r : Nat) (g : Region) :
    (setRegion s r g).datum = s.datum := rfl
@[simp] theorem setRegion_vaon (s : State) (r : Nat) (g : Region) :
    (setRegion s r g).vaon = s.vaon := rfl
@[simp] theorem setRegion_oscillator (s : State) (r : Nat) (g : Region) :
    (setRegion s r g).oscillator = s.oscillator := rfl
@[simp] theorem setRegion_copies (s : State) (r : Nat) (g : Region) :
    (setRegion s r g).copies = s.copies := rfl
@[simp] theorem setRegion_opsec (s : State) (r : Nat) (g : Region) :
    (setRegion s r g).opsec = s.opsec := rfl
@[simp] theorem setRegion_secAt (s : State) (r : Nat) (g : Region) :
    (setRegion s r g).secAt = s.secAt := rfl
@[simp] theorem setRegion_pcc (s : State) (r : Nat) (g : Region) :
    (setRegion s r g).pcc = s.pcc := rfl
@[simp] theorem setRegion_drawn (s : State) (r : Nat) (g : Region) :
    (setRegion s r g).drawn = s.drawn := rfl
@[simp] theorem setRegion_domains (s : State) (r : Nat) (g : Region) :
    (setRegion s r g).domains = s.domains := rfl
@[simp] theorem setRegion_powerQueue (s : State) (r : Nat) (g : Region) :
    (setRegion s r g).powerQueue = s.powerQueue := rfl
@[simp] theorem setRegion_arbiters (s : State) (r : Nat) (g : Region) :
    (setRegion s r g).arbiters = s.arbiters := rfl
@[simp] theorem setRegion_dispatched (s : State) (r : Nat) (g : Region) :
    (setRegion s r g).dispatched = s.dispatched := rfl
@[simp] theorem setRegion_ledger (s : State) (r : Nat) (g : Region) :
    (setRegion s r g).ledger = s.ledger := rfl
@[simp] theorem setRegion_late (s : State) (r : Nat) (g : Region) :
    (setRegion s r g).late = s.late := rfl
@[simp] theorem setRegion_vcore (s : State) (r : Nat) (g : Region) :
    (setRegion s r g).vcore = s.vcore := rfl
@[simp] theorem setRegion_base (s : State) (r : Nat) (g : Region) :
    (setRegion s r g).base = s.base := rfl
@[simp] theorem setRegion_ports (s : State) (r : Nat) (g : Region) :
    (setRegion s r g).ports = s.ports := rfl
@[simp] theorem setRegion_features (s : State) (r : Nat) (g : Region) :
    (setRegion s r g).features = s.features := rfl
@[simp] theorem setRegion_mi (s : State) (r : Nat) (g : Region) :
    (setRegion s r g).mi = s.mi := rfl
@[simp] theorem setRegion_held (s : State) (r : Nat) (g : Region) :
    (setRegion s r g).held = s.held := rfl
@[simp] theorem setRegion_decided (s : State) (r : Nat) (g : Region) :
    (setRegion s r g).decided = s.decided := rfl
@[simp] theorem setRegion_writes (s : State) (r : Nat) (g : Region) :
    (setRegion s r g).writes = s.writes := rfl
@[simp] theorem setRegion_lines (s : State) (r : Nat) (g : Region) :
    (setRegion s r g).lines = s.lines := rfl
@[simp] theorem setRegion_holdUp (s : State) (r : Nat) (g : Region) :
    (setRegion s r g).holdUp = s.holdUp := rfl
@[simp] theorem setRegion_dump (s : State) (r : Nat) (g : Region) :
    (setRegion s r g).dump = s.dump := rfl
@[simp] theorem setRegion_resvs (s : State) (r : Nat) (g : Region) :
    (setRegion s r g).resvs = s.resvs := rfl
@[simp] theorem setRegion_resvGen (s : State) (r : Nat) (g : Region) :
    (setRegion s r g).resvGen = s.resvGen := rfl
@[simp] theorem setRegion_namespaces (s : State) (r : Nat) (g : Region) :
    (setRegion s r g).namespaces = s.namespaces := rfl
@[simp] theorem setRegion_turns (s : State) (r : Nat) (g : Region) :
    (setRegion s r g).turns = s.turns := rfl
@[simp] theorem setRegion_nsMade (s : State) (r : Nat) (g : Region) :
    (setRegion s r g).nsMade = s.nsMade := rfl
@[simp] theorem setRegion_media (s : State) (r : Nat) (g : Region) :
    (setRegion s r g).media = s.media := rfl
@[simp] theorem setRegion_smart (s : State) (r : Nat) (g : Region) :
    (setRegion s r g).smart = s.smart := rfl
@[simp] theorem setRegion_dram (s : State) (r : Nat) (g : Region) :
    (setRegion s r g).dram = s.dram := rfl
@[simp] theorem setRegion_setU (s : State) (r : Nat) (g : Region) :
    (setRegion s r g).setU = s.setU := rfl
@[simp] theorem setRegion_cores (s : State) (r : Nat) (g : Region) :
    (setRegion s r g).cores = s.cores := rfl
@[simp] theorem setRegion_tasks (s : State) (r : Nat) (g : Region) :
    (setRegion s r g).tasks = s.tasks := rfl
@[simp] theorem setRegion_gens (s : State) (r : Nat) (g : Region) :
    (setRegion s r g).gens = s.gens := rfl
@[simp] theorem setRegion_flows (s : State) (r : Nat) (g : Region) :
    (setRegion s r g).flows = s.flows := rfl
@[simp] theorem setRegion_poolTab (s : State) (r : Nat) (g : Region) :
    (setRegion s r g).poolTab = s.poolTab := rfl
@[simp] theorem setRegion_progs (s : State) (r : Nat) (g : Region) :
    (setRegion s r g).progs = s.progs := rfl
@[simp] theorem setRegion_invs (s : State) (r : Nat) (g : Region) :
    (setRegion s r g).invs = s.invs := rfl
@[simp] theorem setRegion_waitingInvokes (s : State) (r : Nat) (g : Region) :
    (setRegion s r g).waitingInvokes = s.waitingInvokes := rfl
@[simp] theorem setRegion_scans (s : State) (r : Nat) (g : Region) :
    (setRegion s r g).scans = s.scans := rfl
@[simp] theorem setRegion_accounts (s : State) (r : Nat) (g : Region) :
    (setRegion s r g).accounts = s.accounts := rfl
@[simp] theorem setRegion_results (s : State) (r : Nat) (g : Region) :
    (setRegion s r g).results = s.results := rfl
@[simp] theorem setRegion_resultGens (s : State) (r : Nat) (g : Region) :
    (setRegion s r g).resultGens = s.resultGens := rfl
@[simp] theorem setRegion_tables (s : State) (r : Nat) (g : Region) :
    (setRegion s r g).tables = s.tables := rfl
@[simp] theorem setRegion_bankReady (s : State) (r : Nat) (g : Region) :
    (setRegion s r g).bankReady = s.bankReady := rfl
@[simp] theorem setRegion_sets (s : State) (r : Nat) (g : Region) :
    (setRegion s r g).sets = s.sets := rfl
@[simp] theorem setRegion_oldSets (s : State) (r : Nat) (g : Region) :
    (setRegion s r g).oldSets = s.oldSets := rfl
@[simp] theorem setRegion_filters (s : State) (r : Nat) (g : Region) :
    (setRegion s r g).filters = s.filters := rfl
@[simp] theorem setRegion_contexts (s : State) (r : Nat) (g : Region) :
    (setRegion s r g).contexts = s.contexts := rfl
@[simp] theorem setRegion_sessions (s : State) (r : Nat) (g : Region) :
    (setRegion s r g).sessions = s.sessions := rfl
@[simp] theorem setRegion_keys (s : State) (r : Nat) (g : Region) :
    (setRegion s r g).keys = s.keys := rfl
@[simp] theorem setRegion_certificate (s : State) (r : Nat) (g : Region) :
    (setRegion s r g).certificate = s.certificate := rfl
@[simp] theorem setRegion_slices (s : State) (r : Nat) (g : Region) :
    (setRegion s r g).slices = s.slices := rfl
@[simp] theorem setRegion_sliceGen (s : State) (r : Nat) (g : Region) :
    (setRegion s r g).sliceGen = s.sliceGen := rfl
@[simp] theorem setRegion_scrubMib (s : State) (r : Nat) (g : Region) :
    (setRegion s r g).scrubMib = s.scrubMib := rfl
@[simp] theorem setRegion_stu (s : State) (r : Nat) (g : Region) :
    (setRegion s r g).stu = s.stu := rfl
@[simp] theorem setRegion_fwPorts (s : State) (r : Nat) (g : Region) :
    (setRegion s r g).fwPorts = s.fwPorts := rfl
@[simp] theorem setRegion_thermal (s : State) (r : Nat) (g : Region) :
    (setRegion s r g).thermal = s.thermal := rfl
@[simp] theorem setRegion_supply (s : State) (r : Nat) (g : Region) :
    (setRegion s r g).supply = s.supply := rfl
@[simp] theorem setRegion_faults (s : State) (r : Nat) (g : Region) :
    (setRegion s r g).faults = s.faults := rfl
@[simp] theorem setRegion_book (s : State) (r : Nat) (g : Region) :
    (setRegion s r g).book = s.book := rfl
@[simp] theorem setRegion_flushImage (s : State) (r : Nat) (g : Region) :
    (setRegion s r g).flushImage = s.flushImage := rfl
@[simp] theorem setRegion_bookSlots (s : State) (r : Nat) (g : Region) :
    (setRegion s r g).bookSlots = s.bookSlots := rfl
@[simp] theorem setRegion_presence (s : State) (r : Nat) (g : Region) :
    (setRegion s r g).presence = s.presence := rfl
@[simp] theorem setRegion_startup (s : State) (r : Nat) (g : Region) :
    (setRegion s r g).startup = s.startup := rfl

/-! ### `setPort` -/

@[simp] theorem setPort_pending (s : State) (p : PortId) (q : HostPort) :
    (setPort s p q).pending = s.pending := rfl
@[simp] theorem setPort_datum (s : State) (p : PortId) (q : HostPort) :
    (setPort s p q).datum = s.datum := rfl
@[simp] theorem setPort_vaon (s : State) (p : PortId) (q : HostPort) :
    (setPort s p q).vaon = s.vaon := rfl
@[simp] theorem setPort_oscillator (s : State) (p : PortId) (q : HostPort) :
    (setPort s p q).oscillator = s.oscillator := rfl
@[simp] theorem setPort_copies (s : State) (p : PortId) (q : HostPort) :
    (setPort s p q).copies = s.copies := rfl
@[simp] theorem setPort_opsec (s : State) (p : PortId) (q : HostPort) :
    (setPort s p q).opsec = s.opsec := rfl
@[simp] theorem setPort_secAt (s : State) (p : PortId) (q : HostPort) :
    (setPort s p q).secAt = s.secAt := rfl
@[simp] theorem setPort_pcc (s : State) (p : PortId) (q : HostPort) :
    (setPort s p q).pcc = s.pcc := rfl
@[simp] theorem setPort_drawn (s : State) (p : PortId) (q : HostPort) :
    (setPort s p q).drawn = s.drawn := rfl
@[simp] theorem setPort_regions (s : State) (p : PortId) (q : HostPort) :
    (setPort s p q).regions = s.regions := rfl
@[simp] theorem setPort_domains (s : State) (p : PortId) (q : HostPort) :
    (setPort s p q).domains = s.domains := rfl
@[simp] theorem setPort_powerQueue (s : State) (p : PortId) (q : HostPort) :
    (setPort s p q).powerQueue = s.powerQueue := rfl
@[simp] theorem setPort_arbiters (s : State) (p : PortId) (q : HostPort) :
    (setPort s p q).arbiters = s.arbiters := rfl
@[simp] theorem setPort_dispatched (s : State) (p : PortId) (q : HostPort) :
    (setPort s p q).dispatched = s.dispatched := rfl
@[simp] theorem setPort_ledger (s : State) (p : PortId) (q : HostPort) :
    (setPort s p q).ledger = s.ledger := rfl
@[simp] theorem setPort_late (s : State) (p : PortId) (q : HostPort) :
    (setPort s p q).late = s.late := rfl
@[simp] theorem setPort_vcore (s : State) (p : PortId) (q : HostPort) :
    (setPort s p q).vcore = s.vcore := rfl
@[simp] theorem setPort_base (s : State) (p : PortId) (q : HostPort) :
    (setPort s p q).base = s.base := rfl
@[simp] theorem setPort_features (s : State) (p : PortId) (q : HostPort) :
    (setPort s p q).features = s.features := rfl
@[simp] theorem setPort_mi (s : State) (p : PortId) (q : HostPort) :
    (setPort s p q).mi = s.mi := rfl
@[simp] theorem setPort_held (s : State) (p : PortId) (q : HostPort) :
    (setPort s p q).held = s.held := rfl
@[simp] theorem setPort_decided (s : State) (p : PortId) (q : HostPort) :
    (setPort s p q).decided = s.decided := rfl
@[simp] theorem setPort_writes (s : State) (p : PortId) (q : HostPort) :
    (setPort s p q).writes = s.writes := rfl
@[simp] theorem setPort_lines (s : State) (p : PortId) (q : HostPort) :
    (setPort s p q).lines = s.lines := rfl
@[simp] theorem setPort_holdUp (s : State) (p : PortId) (q : HostPort) :
    (setPort s p q).holdUp = s.holdUp := rfl
@[simp] theorem setPort_dump (s : State) (p : PortId) (q : HostPort) :
    (setPort s p q).dump = s.dump := rfl
@[simp] theorem setPort_resvs (s : State) (p : PortId) (q : HostPort) :
    (setPort s p q).resvs = s.resvs := rfl
@[simp] theorem setPort_resvGen (s : State) (p : PortId) (q : HostPort) :
    (setPort s p q).resvGen = s.resvGen := rfl
@[simp] theorem setPort_namespaces (s : State) (p : PortId) (q : HostPort) :
    (setPort s p q).namespaces = s.namespaces := rfl
@[simp] theorem setPort_turns (s : State) (p : PortId) (q : HostPort) :
    (setPort s p q).turns = s.turns := rfl
@[simp] theorem setPort_nsMade (s : State) (p : PortId) (q : HostPort) :
    (setPort s p q).nsMade = s.nsMade := rfl
@[simp] theorem setPort_media (s : State) (p : PortId) (q : HostPort) :
    (setPort s p q).media = s.media := rfl
@[simp] theorem setPort_smart (s : State) (p : PortId) (q : HostPort) :
    (setPort s p q).smart = s.smart := rfl
@[simp] theorem setPort_dram (s : State) (p : PortId) (q : HostPort) :
    (setPort s p q).dram = s.dram := rfl
@[simp] theorem setPort_setU (s : State) (p : PortId) (q : HostPort) :
    (setPort s p q).setU = s.setU := rfl
@[simp] theorem setPort_cores (s : State) (p : PortId) (q : HostPort) :
    (setPort s p q).cores = s.cores := rfl
@[simp] theorem setPort_tasks (s : State) (p : PortId) (q : HostPort) :
    (setPort s p q).tasks = s.tasks := rfl
@[simp] theorem setPort_gens (s : State) (p : PortId) (q : HostPort) :
    (setPort s p q).gens = s.gens := rfl
@[simp] theorem setPort_flows (s : State) (p : PortId) (q : HostPort) :
    (setPort s p q).flows = s.flows := rfl
@[simp] theorem setPort_poolTab (s : State) (p : PortId) (q : HostPort) :
    (setPort s p q).poolTab = s.poolTab := rfl
@[simp] theorem setPort_progs (s : State) (p : PortId) (q : HostPort) :
    (setPort s p q).progs = s.progs := rfl
@[simp] theorem setPort_invs (s : State) (p : PortId) (q : HostPort) :
    (setPort s p q).invs = s.invs := rfl
@[simp] theorem setPort_waitingInvokes (s : State) (p : PortId) (q : HostPort) :
    (setPort s p q).waitingInvokes = s.waitingInvokes := rfl
@[simp] theorem setPort_scans (s : State) (p : PortId) (q : HostPort) :
    (setPort s p q).scans = s.scans := rfl
@[simp] theorem setPort_accounts (s : State) (p : PortId) (q : HostPort) :
    (setPort s p q).accounts = s.accounts := rfl
@[simp] theorem setPort_results (s : State) (p : PortId) (q : HostPort) :
    (setPort s p q).results = s.results := rfl
@[simp] theorem setPort_resultGens (s : State) (p : PortId) (q : HostPort) :
    (setPort s p q).resultGens = s.resultGens := rfl
@[simp] theorem setPort_tables (s : State) (p : PortId) (q : HostPort) :
    (setPort s p q).tables = s.tables := rfl
@[simp] theorem setPort_bankReady (s : State) (p : PortId) (q : HostPort) :
    (setPort s p q).bankReady = s.bankReady := rfl
@[simp] theorem setPort_sets (s : State) (p : PortId) (q : HostPort) :
    (setPort s p q).sets = s.sets := rfl
@[simp] theorem setPort_oldSets (s : State) (p : PortId) (q : HostPort) :
    (setPort s p q).oldSets = s.oldSets := rfl
@[simp] theorem setPort_filters (s : State) (p : PortId) (q : HostPort) :
    (setPort s p q).filters = s.filters := rfl
@[simp] theorem setPort_contexts (s : State) (p : PortId) (q : HostPort) :
    (setPort s p q).contexts = s.contexts := rfl
@[simp] theorem setPort_sessions (s : State) (p : PortId) (q : HostPort) :
    (setPort s p q).sessions = s.sessions := rfl
@[simp] theorem setPort_keys (s : State) (p : PortId) (q : HostPort) :
    (setPort s p q).keys = s.keys := rfl
@[simp] theorem setPort_certificate (s : State) (p : PortId) (q : HostPort) :
    (setPort s p q).certificate = s.certificate := rfl
@[simp] theorem setPort_slices (s : State) (p : PortId) (q : HostPort) :
    (setPort s p q).slices = s.slices := rfl
@[simp] theorem setPort_sliceGen (s : State) (p : PortId) (q : HostPort) :
    (setPort s p q).sliceGen = s.sliceGen := rfl
@[simp] theorem setPort_scrubMib (s : State) (p : PortId) (q : HostPort) :
    (setPort s p q).scrubMib = s.scrubMib := rfl
@[simp] theorem setPort_stu (s : State) (p : PortId) (q : HostPort) :
    (setPort s p q).stu = s.stu := rfl
@[simp] theorem setPort_fwPorts (s : State) (p : PortId) (q : HostPort) :
    (setPort s p q).fwPorts = s.fwPorts := rfl
@[simp] theorem setPort_thermal (s : State) (p : PortId) (q : HostPort) :
    (setPort s p q).thermal = s.thermal := rfl
@[simp] theorem setPort_supply (s : State) (p : PortId) (q : HostPort) :
    (setPort s p q).supply = s.supply := rfl
@[simp] theorem setPort_faults (s : State) (p : PortId) (q : HostPort) :
    (setPort s p q).faults = s.faults := rfl
@[simp] theorem setPort_book (s : State) (p : PortId) (q : HostPort) :
    (setPort s p q).book = s.book := rfl
@[simp] theorem setPort_flushImage (s : State) (p : PortId) (q : HostPort) :
    (setPort s p q).flushImage = s.flushImage := rfl
@[simp] theorem setPort_bookSlots (s : State) (p : PortId) (q : HostPort) :
    (setPort s p q).bookSlots = s.bookSlots := rfl
@[simp] theorem setPort_presence (s : State) (p : PortId) (q : HostPort) :
    (setPort s p q).presence = s.presence := rfl
@[simp] theorem setPort_startup (s : State) (p : PortId) (q : HostPort) :
    (setPort s p q).startup = s.startup := rfl

/-! ### `setSlice` -/

@[simp] theorem setSlice_pending (s : State) (n : Nat) (x : Slice) :
    (setSlice s n x).pending = s.pending := rfl
@[simp] theorem setSlice_datum (s : State) (n : Nat) (x : Slice) :
    (setSlice s n x).datum = s.datum := rfl
@[simp] theorem setSlice_vaon (s : State) (n : Nat) (x : Slice) :
    (setSlice s n x).vaon = s.vaon := rfl
@[simp] theorem setSlice_oscillator (s : State) (n : Nat) (x : Slice) :
    (setSlice s n x).oscillator = s.oscillator := rfl
@[simp] theorem setSlice_copies (s : State) (n : Nat) (x : Slice) :
    (setSlice s n x).copies = s.copies := rfl
@[simp] theorem setSlice_opsec (s : State) (n : Nat) (x : Slice) :
    (setSlice s n x).opsec = s.opsec := rfl
@[simp] theorem setSlice_secAt (s : State) (n : Nat) (x : Slice) :
    (setSlice s n x).secAt = s.secAt := rfl
@[simp] theorem setSlice_pcc (s : State) (n : Nat) (x : Slice) :
    (setSlice s n x).pcc = s.pcc := rfl
@[simp] theorem setSlice_drawn (s : State) (n : Nat) (x : Slice) :
    (setSlice s n x).drawn = s.drawn := rfl
@[simp] theorem setSlice_regions (s : State) (n : Nat) (x : Slice) :
    (setSlice s n x).regions = s.regions := rfl
@[simp] theorem setSlice_domains (s : State) (n : Nat) (x : Slice) :
    (setSlice s n x).domains = s.domains := rfl
@[simp] theorem setSlice_powerQueue (s : State) (n : Nat) (x : Slice) :
    (setSlice s n x).powerQueue = s.powerQueue := rfl
@[simp] theorem setSlice_arbiters (s : State) (n : Nat) (x : Slice) :
    (setSlice s n x).arbiters = s.arbiters := rfl
@[simp] theorem setSlice_dispatched (s : State) (n : Nat) (x : Slice) :
    (setSlice s n x).dispatched = s.dispatched := rfl
@[simp] theorem setSlice_ledger (s : State) (n : Nat) (x : Slice) :
    (setSlice s n x).ledger = s.ledger := rfl
@[simp] theorem setSlice_late (s : State) (n : Nat) (x : Slice) :
    (setSlice s n x).late = s.late := rfl
@[simp] theorem setSlice_vcore (s : State) (n : Nat) (x : Slice) :
    (setSlice s n x).vcore = s.vcore := rfl
@[simp] theorem setSlice_base (s : State) (n : Nat) (x : Slice) :
    (setSlice s n x).base = s.base := rfl
@[simp] theorem setSlice_ports (s : State) (n : Nat) (x : Slice) :
    (setSlice s n x).ports = s.ports := rfl
@[simp] theorem setSlice_features (s : State) (n : Nat) (x : Slice) :
    (setSlice s n x).features = s.features := rfl
@[simp] theorem setSlice_mi (s : State) (n : Nat) (x : Slice) :
    (setSlice s n x).mi = s.mi := rfl
@[simp] theorem setSlice_held (s : State) (n : Nat) (x : Slice) :
    (setSlice s n x).held = s.held := rfl
@[simp] theorem setSlice_decided (s : State) (n : Nat) (x : Slice) :
    (setSlice s n x).decided = s.decided := rfl
@[simp] theorem setSlice_writes (s : State) (n : Nat) (x : Slice) :
    (setSlice s n x).writes = s.writes := rfl
@[simp] theorem setSlice_lines (s : State) (n : Nat) (x : Slice) :
    (setSlice s n x).lines = s.lines := rfl
@[simp] theorem setSlice_holdUp (s : State) (n : Nat) (x : Slice) :
    (setSlice s n x).holdUp = s.holdUp := rfl
@[simp] theorem setSlice_dump (s : State) (n : Nat) (x : Slice) :
    (setSlice s n x).dump = s.dump := rfl
@[simp] theorem setSlice_resvs (s : State) (n : Nat) (x : Slice) :
    (setSlice s n x).resvs = s.resvs := rfl
@[simp] theorem setSlice_resvGen (s : State) (n : Nat) (x : Slice) :
    (setSlice s n x).resvGen = s.resvGen := rfl
@[simp] theorem setSlice_namespaces (s : State) (n : Nat) (x : Slice) :
    (setSlice s n x).namespaces = s.namespaces := rfl
@[simp] theorem setSlice_turns (s : State) (n : Nat) (x : Slice) :
    (setSlice s n x).turns = s.turns := rfl
@[simp] theorem setSlice_nsMade (s : State) (n : Nat) (x : Slice) :
    (setSlice s n x).nsMade = s.nsMade := rfl
@[simp] theorem setSlice_media (s : State) (n : Nat) (x : Slice) :
    (setSlice s n x).media = s.media := rfl
@[simp] theorem setSlice_smart (s : State) (n : Nat) (x : Slice) :
    (setSlice s n x).smart = s.smart := rfl
@[simp] theorem setSlice_dram (s : State) (n : Nat) (x : Slice) :
    (setSlice s n x).dram = s.dram := rfl
@[simp] theorem setSlice_setU (s : State) (n : Nat) (x : Slice) :
    (setSlice s n x).setU = s.setU := rfl
@[simp] theorem setSlice_cores (s : State) (n : Nat) (x : Slice) :
    (setSlice s n x).cores = s.cores := rfl
@[simp] theorem setSlice_tasks (s : State) (n : Nat) (x : Slice) :
    (setSlice s n x).tasks = s.tasks := rfl
@[simp] theorem setSlice_gens (s : State) (n : Nat) (x : Slice) :
    (setSlice s n x).gens = s.gens := rfl
@[simp] theorem setSlice_flows (s : State) (n : Nat) (x : Slice) :
    (setSlice s n x).flows = s.flows := rfl
@[simp] theorem setSlice_poolTab (s : State) (n : Nat) (x : Slice) :
    (setSlice s n x).poolTab = s.poolTab := rfl
@[simp] theorem setSlice_progs (s : State) (n : Nat) (x : Slice) :
    (setSlice s n x).progs = s.progs := rfl
@[simp] theorem setSlice_invs (s : State) (n : Nat) (x : Slice) :
    (setSlice s n x).invs = s.invs := rfl
@[simp] theorem setSlice_waitingInvokes (s : State) (n : Nat) (x : Slice) :
    (setSlice s n x).waitingInvokes = s.waitingInvokes := rfl
@[simp] theorem setSlice_scans (s : State) (n : Nat) (x : Slice) :
    (setSlice s n x).scans = s.scans := rfl
@[simp] theorem setSlice_accounts (s : State) (n : Nat) (x : Slice) :
    (setSlice s n x).accounts = s.accounts := rfl
@[simp] theorem setSlice_results (s : State) (n : Nat) (x : Slice) :
    (setSlice s n x).results = s.results := rfl
@[simp] theorem setSlice_resultGens (s : State) (n : Nat) (x : Slice) :
    (setSlice s n x).resultGens = s.resultGens := rfl
@[simp] theorem setSlice_tables (s : State) (n : Nat) (x : Slice) :
    (setSlice s n x).tables = s.tables := rfl
@[simp] theorem setSlice_bankReady (s : State) (n : Nat) (x : Slice) :
    (setSlice s n x).bankReady = s.bankReady := rfl
@[simp] theorem setSlice_sets (s : State) (n : Nat) (x : Slice) :
    (setSlice s n x).sets = s.sets := rfl
@[simp] theorem setSlice_oldSets (s : State) (n : Nat) (x : Slice) :
    (setSlice s n x).oldSets = s.oldSets := rfl
@[simp] theorem setSlice_filters (s : State) (n : Nat) (x : Slice) :
    (setSlice s n x).filters = s.filters := rfl
@[simp] theorem setSlice_contexts (s : State) (n : Nat) (x : Slice) :
    (setSlice s n x).contexts = s.contexts := rfl
@[simp] theorem setSlice_sessions (s : State) (n : Nat) (x : Slice) :
    (setSlice s n x).sessions = s.sessions := rfl
@[simp] theorem setSlice_keys (s : State) (n : Nat) (x : Slice) :
    (setSlice s n x).keys = s.keys := rfl
@[simp] theorem setSlice_certificate (s : State) (n : Nat) (x : Slice) :
    (setSlice s n x).certificate = s.certificate := rfl
@[simp] theorem setSlice_sliceGen (s : State) (n : Nat) (x : Slice) :
    (setSlice s n x).sliceGen = s.sliceGen := rfl
@[simp] theorem setSlice_scrubMib (s : State) (n : Nat) (x : Slice) :
    (setSlice s n x).scrubMib = s.scrubMib := rfl
@[simp] theorem setSlice_stu (s : State) (n : Nat) (x : Slice) :
    (setSlice s n x).stu = s.stu := rfl
@[simp] theorem setSlice_fwPorts (s : State) (n : Nat) (x : Slice) :
    (setSlice s n x).fwPorts = s.fwPorts := rfl
@[simp] theorem setSlice_thermal (s : State) (n : Nat) (x : Slice) :
    (setSlice s n x).thermal = s.thermal := rfl
@[simp] theorem setSlice_supply (s : State) (n : Nat) (x : Slice) :
    (setSlice s n x).supply = s.supply := rfl
@[simp] theorem setSlice_faults (s : State) (n : Nat) (x : Slice) :
    (setSlice s n x).faults = s.faults := rfl
@[simp] theorem setSlice_book (s : State) (n : Nat) (x : Slice) :
    (setSlice s n x).book = s.book := rfl
@[simp] theorem setSlice_flushImage (s : State) (n : Nat) (x : Slice) :
    (setSlice s n x).flushImage = s.flushImage := rfl
@[simp] theorem setSlice_bookSlots (s : State) (n : Nat) (x : Slice) :
    (setSlice s n x).bookSlots = s.bookSlots := rfl
@[simp] theorem setSlice_presence (s : State) (n : Nat) (x : Slice) :
    (setSlice s n x).presence = s.presence := rfl
@[simp] theorem setSlice_startup (s : State) (n : Nat) (x : Slice) :
    (setSlice s n x).startup = s.startup := rfl

/-! ### `setNs` -/

@[simp] theorem setNs_pending (n : Nat) (x : Namespace) (s : State) :
    (setNs n x s).pending = s.pending := rfl
@[simp] theorem setNs_datum (n : Nat) (x : Namespace) (s : State) :
    (setNs n x s).datum = s.datum := rfl
@[simp] theorem setNs_vaon (n : Nat) (x : Namespace) (s : State) :
    (setNs n x s).vaon = s.vaon := rfl
@[simp] theorem setNs_oscillator (n : Nat) (x : Namespace) (s : State) :
    (setNs n x s).oscillator = s.oscillator := rfl
@[simp] theorem setNs_copies (n : Nat) (x : Namespace) (s : State) :
    (setNs n x s).copies = s.copies := rfl
@[simp] theorem setNs_opsec (n : Nat) (x : Namespace) (s : State) :
    (setNs n x s).opsec = s.opsec := rfl
@[simp] theorem setNs_secAt (n : Nat) (x : Namespace) (s : State) :
    (setNs n x s).secAt = s.secAt := rfl
@[simp] theorem setNs_pcc (n : Nat) (x : Namespace) (s : State) :
    (setNs n x s).pcc = s.pcc := rfl
@[simp] theorem setNs_drawn (n : Nat) (x : Namespace) (s : State) :
    (setNs n x s).drawn = s.drawn := rfl
@[simp] theorem setNs_regions (n : Nat) (x : Namespace) (s : State) :
    (setNs n x s).regions = s.regions := rfl
@[simp] theorem setNs_domains (n : Nat) (x : Namespace) (s : State) :
    (setNs n x s).domains = s.domains := rfl
@[simp] theorem setNs_powerQueue (n : Nat) (x : Namespace) (s : State) :
    (setNs n x s).powerQueue = s.powerQueue := rfl
@[simp] theorem setNs_arbiters (n : Nat) (x : Namespace) (s : State) :
    (setNs n x s).arbiters = s.arbiters := rfl
@[simp] theorem setNs_dispatched (n : Nat) (x : Namespace) (s : State) :
    (setNs n x s).dispatched = s.dispatched := rfl
@[simp] theorem setNs_ledger (n : Nat) (x : Namespace) (s : State) :
    (setNs n x s).ledger = s.ledger := rfl
@[simp] theorem setNs_late (n : Nat) (x : Namespace) (s : State) :
    (setNs n x s).late = s.late := rfl
@[simp] theorem setNs_vcore (n : Nat) (x : Namespace) (s : State) :
    (setNs n x s).vcore = s.vcore := rfl
@[simp] theorem setNs_base (n : Nat) (x : Namespace) (s : State) :
    (setNs n x s).base = s.base := rfl
@[simp] theorem setNs_ports (n : Nat) (x : Namespace) (s : State) :
    (setNs n x s).ports = s.ports := rfl
@[simp] theorem setNs_features (n : Nat) (x : Namespace) (s : State) :
    (setNs n x s).features = s.features := rfl
@[simp] theorem setNs_mi (n : Nat) (x : Namespace) (s : State) :
    (setNs n x s).mi = s.mi := rfl
@[simp] theorem setNs_held (n : Nat) (x : Namespace) (s : State) :
    (setNs n x s).held = s.held := rfl
@[simp] theorem setNs_decided (n : Nat) (x : Namespace) (s : State) :
    (setNs n x s).decided = s.decided := rfl
@[simp] theorem setNs_writes (n : Nat) (x : Namespace) (s : State) :
    (setNs n x s).writes = s.writes := rfl
@[simp] theorem setNs_lines (n : Nat) (x : Namespace) (s : State) :
    (setNs n x s).lines = s.lines := rfl
@[simp] theorem setNs_holdUp (n : Nat) (x : Namespace) (s : State) :
    (setNs n x s).holdUp = s.holdUp := rfl
@[simp] theorem setNs_dump (n : Nat) (x : Namespace) (s : State) :
    (setNs n x s).dump = s.dump := rfl
@[simp] theorem setNs_resvs (n : Nat) (x : Namespace) (s : State) :
    (setNs n x s).resvs = s.resvs := rfl
@[simp] theorem setNs_resvGen (n : Nat) (x : Namespace) (s : State) :
    (setNs n x s).resvGen = s.resvGen := rfl
@[simp] theorem setNs_turns (n : Nat) (x : Namespace) (s : State) :
    (setNs n x s).turns = s.turns := rfl
@[simp] theorem setNs_nsMade (n : Nat) (x : Namespace) (s : State) :
    (setNs n x s).nsMade = s.nsMade := rfl
@[simp] theorem setNs_media (n : Nat) (x : Namespace) (s : State) :
    (setNs n x s).media = s.media := rfl
@[simp] theorem setNs_smart (n : Nat) (x : Namespace) (s : State) :
    (setNs n x s).smart = s.smart := rfl
@[simp] theorem setNs_dram (n : Nat) (x : Namespace) (s : State) :
    (setNs n x s).dram = s.dram := rfl
@[simp] theorem setNs_setU (n : Nat) (x : Namespace) (s : State) :
    (setNs n x s).setU = s.setU := rfl
@[simp] theorem setNs_cores (n : Nat) (x : Namespace) (s : State) :
    (setNs n x s).cores = s.cores := rfl
@[simp] theorem setNs_tasks (n : Nat) (x : Namespace) (s : State) :
    (setNs n x s).tasks = s.tasks := rfl
@[simp] theorem setNs_gens (n : Nat) (x : Namespace) (s : State) :
    (setNs n x s).gens = s.gens := rfl
@[simp] theorem setNs_flows (n : Nat) (x : Namespace) (s : State) :
    (setNs n x s).flows = s.flows := rfl
@[simp] theorem setNs_poolTab (n : Nat) (x : Namespace) (s : State) :
    (setNs n x s).poolTab = s.poolTab := rfl
@[simp] theorem setNs_progs (n : Nat) (x : Namespace) (s : State) :
    (setNs n x s).progs = s.progs := rfl
@[simp] theorem setNs_invs (n : Nat) (x : Namespace) (s : State) :
    (setNs n x s).invs = s.invs := rfl
@[simp] theorem setNs_waitingInvokes (n : Nat) (x : Namespace) (s : State) :
    (setNs n x s).waitingInvokes = s.waitingInvokes := rfl
@[simp] theorem setNs_scans (n : Nat) (x : Namespace) (s : State) :
    (setNs n x s).scans = s.scans := rfl
@[simp] theorem setNs_accounts (n : Nat) (x : Namespace) (s : State) :
    (setNs n x s).accounts = s.accounts := rfl
@[simp] theorem setNs_results (n : Nat) (x : Namespace) (s : State) :
    (setNs n x s).results = s.results := rfl
@[simp] theorem setNs_resultGens (n : Nat) (x : Namespace) (s : State) :
    (setNs n x s).resultGens = s.resultGens := rfl
@[simp] theorem setNs_tables (n : Nat) (x : Namespace) (s : State) :
    (setNs n x s).tables = s.tables := rfl
@[simp] theorem setNs_bankReady (n : Nat) (x : Namespace) (s : State) :
    (setNs n x s).bankReady = s.bankReady := rfl
@[simp] theorem setNs_sets (n : Nat) (x : Namespace) (s : State) :
    (setNs n x s).sets = s.sets := rfl
@[simp] theorem setNs_oldSets (n : Nat) (x : Namespace) (s : State) :
    (setNs n x s).oldSets = s.oldSets := rfl
@[simp] theorem setNs_filters (n : Nat) (x : Namespace) (s : State) :
    (setNs n x s).filters = s.filters := rfl
@[simp] theorem setNs_contexts (n : Nat) (x : Namespace) (s : State) :
    (setNs n x s).contexts = s.contexts := rfl
@[simp] theorem setNs_sessions (n : Nat) (x : Namespace) (s : State) :
    (setNs n x s).sessions = s.sessions := rfl
@[simp] theorem setNs_keys (n : Nat) (x : Namespace) (s : State) :
    (setNs n x s).keys = s.keys := rfl
@[simp] theorem setNs_certificate (n : Nat) (x : Namespace) (s : State) :
    (setNs n x s).certificate = s.certificate := rfl
@[simp] theorem setNs_slices (n : Nat) (x : Namespace) (s : State) :
    (setNs n x s).slices = s.slices := rfl
@[simp] theorem setNs_sliceGen (n : Nat) (x : Namespace) (s : State) :
    (setNs n x s).sliceGen = s.sliceGen := rfl
@[simp] theorem setNs_scrubMib (n : Nat) (x : Namespace) (s : State) :
    (setNs n x s).scrubMib = s.scrubMib := rfl
@[simp] theorem setNs_stu (n : Nat) (x : Namespace) (s : State) :
    (setNs n x s).stu = s.stu := rfl
@[simp] theorem setNs_fwPorts (n : Nat) (x : Namespace) (s : State) :
    (setNs n x s).fwPorts = s.fwPorts := rfl
@[simp] theorem setNs_thermal (n : Nat) (x : Namespace) (s : State) :
    (setNs n x s).thermal = s.thermal := rfl
@[simp] theorem setNs_supply (n : Nat) (x : Namespace) (s : State) :
    (setNs n x s).supply = s.supply := rfl
@[simp] theorem setNs_faults (n : Nat) (x : Namespace) (s : State) :
    (setNs n x s).faults = s.faults := rfl
@[simp] theorem setNs_book (n : Nat) (x : Namespace) (s : State) :
    (setNs n x s).book = s.book := rfl
@[simp] theorem setNs_flushImage (n : Nat) (x : Namespace) (s : State) :
    (setNs n x s).flushImage = s.flushImage := rfl
@[simp] theorem setNs_bookSlots (n : Nat) (x : Namespace) (s : State) :
    (setNs n x s).bookSlots = s.bookSlots := rfl
@[simp] theorem setNs_presence (n : Nat) (x : Namespace) (s : State) :
    (setNs n x s).presence = s.presence := rfl
@[simp] theorem setNs_startup (n : Nat) (x : Namespace) (s : State) :
    (setNs n x s).startup = s.startup := rfl

/-! ### `drew` -/

@[simp] theorem drew_pending (n : Nat) (s : State) :
    (drew n s).pending = s.pending := rfl
@[simp] theorem drew_datum (n : Nat) (s : State) :
    (drew n s).datum = s.datum := rfl
@[simp] theorem drew_vaon (n : Nat) (s : State) :
    (drew n s).vaon = s.vaon := rfl
@[simp] theorem drew_oscillator (n : Nat) (s : State) :
    (drew n s).oscillator = s.oscillator := rfl
@[simp] theorem drew_copies (n : Nat) (s : State) :
    (drew n s).copies = s.copies := rfl
@[simp] theorem drew_opsec (n : Nat) (s : State) :
    (drew n s).opsec = s.opsec := rfl
@[simp] theorem drew_secAt (n : Nat) (s : State) :
    (drew n s).secAt = s.secAt := rfl
@[simp] theorem drew_pcc (n : Nat) (s : State) :
    (drew n s).pcc = s.pcc := rfl
@[simp] theorem drew_regions (n : Nat) (s : State) :
    (drew n s).regions = s.regions := rfl
@[simp] theorem drew_domains (n : Nat) (s : State) :
    (drew n s).domains = s.domains := rfl
@[simp] theorem drew_powerQueue (n : Nat) (s : State) :
    (drew n s).powerQueue = s.powerQueue := rfl
@[simp] theorem drew_arbiters (n : Nat) (s : State) :
    (drew n s).arbiters = s.arbiters := rfl
@[simp] theorem drew_dispatched (n : Nat) (s : State) :
    (drew n s).dispatched = s.dispatched := rfl
@[simp] theorem drew_ledger (n : Nat) (s : State) :
    (drew n s).ledger = s.ledger := rfl
@[simp] theorem drew_late (n : Nat) (s : State) :
    (drew n s).late = s.late := rfl
@[simp] theorem drew_vcore (n : Nat) (s : State) :
    (drew n s).vcore = s.vcore := rfl
@[simp] theorem drew_base (n : Nat) (s : State) :
    (drew n s).base = s.base := rfl
@[simp] theorem drew_ports (n : Nat) (s : State) :
    (drew n s).ports = s.ports := rfl
@[simp] theorem drew_features (n : Nat) (s : State) :
    (drew n s).features = s.features := rfl
@[simp] theorem drew_mi (n : Nat) (s : State) :
    (drew n s).mi = s.mi := rfl
@[simp] theorem drew_held (n : Nat) (s : State) :
    (drew n s).held = s.held := rfl
@[simp] theorem drew_decided (n : Nat) (s : State) :
    (drew n s).decided = s.decided := rfl
@[simp] theorem drew_writes (n : Nat) (s : State) :
    (drew n s).writes = s.writes := rfl
@[simp] theorem drew_lines (n : Nat) (s : State) :
    (drew n s).lines = s.lines := rfl
@[simp] theorem drew_holdUp (n : Nat) (s : State) :
    (drew n s).holdUp = s.holdUp := rfl
@[simp] theorem drew_dump (n : Nat) (s : State) :
    (drew n s).dump = s.dump := rfl
@[simp] theorem drew_resvs (n : Nat) (s : State) :
    (drew n s).resvs = s.resvs := rfl
@[simp] theorem drew_resvGen (n : Nat) (s : State) :
    (drew n s).resvGen = s.resvGen := rfl
@[simp] theorem drew_namespaces (n : Nat) (s : State) :
    (drew n s).namespaces = s.namespaces := rfl
@[simp] theorem drew_turns (n : Nat) (s : State) :
    (drew n s).turns = s.turns := rfl
@[simp] theorem drew_nsMade (n : Nat) (s : State) :
    (drew n s).nsMade = s.nsMade := rfl
@[simp] theorem drew_media (n : Nat) (s : State) :
    (drew n s).media = s.media := rfl
@[simp] theorem drew_smart (n : Nat) (s : State) :
    (drew n s).smart = s.smart := rfl
@[simp] theorem drew_dram (n : Nat) (s : State) :
    (drew n s).dram = s.dram := rfl
@[simp] theorem drew_setU (n : Nat) (s : State) :
    (drew n s).setU = s.setU := rfl
@[simp] theorem drew_cores (n : Nat) (s : State) :
    (drew n s).cores = s.cores := rfl
@[simp] theorem drew_tasks (n : Nat) (s : State) :
    (drew n s).tasks = s.tasks := rfl
@[simp] theorem drew_gens (n : Nat) (s : State) :
    (drew n s).gens = s.gens := rfl
@[simp] theorem drew_flows (n : Nat) (s : State) :
    (drew n s).flows = s.flows := rfl
@[simp] theorem drew_poolTab (n : Nat) (s : State) :
    (drew n s).poolTab = s.poolTab := rfl
@[simp] theorem drew_progs (n : Nat) (s : State) :
    (drew n s).progs = s.progs := rfl
@[simp] theorem drew_invs (n : Nat) (s : State) :
    (drew n s).invs = s.invs := rfl
@[simp] theorem drew_waitingInvokes (n : Nat) (s : State) :
    (drew n s).waitingInvokes = s.waitingInvokes := rfl
@[simp] theorem drew_scans (n : Nat) (s : State) :
    (drew n s).scans = s.scans := rfl
@[simp] theorem drew_accounts (n : Nat) (s : State) :
    (drew n s).accounts = s.accounts := rfl
@[simp] theorem drew_results (n : Nat) (s : State) :
    (drew n s).results = s.results := rfl
@[simp] theorem drew_resultGens (n : Nat) (s : State) :
    (drew n s).resultGens = s.resultGens := rfl
@[simp] theorem drew_tables (n : Nat) (s : State) :
    (drew n s).tables = s.tables := rfl
@[simp] theorem drew_bankReady (n : Nat) (s : State) :
    (drew n s).bankReady = s.bankReady := rfl
@[simp] theorem drew_sets (n : Nat) (s : State) :
    (drew n s).sets = s.sets := rfl
@[simp] theorem drew_oldSets (n : Nat) (s : State) :
    (drew n s).oldSets = s.oldSets := rfl
@[simp] theorem drew_filters (n : Nat) (s : State) :
    (drew n s).filters = s.filters := rfl
@[simp] theorem drew_contexts (n : Nat) (s : State) :
    (drew n s).contexts = s.contexts := rfl
@[simp] theorem drew_sessions (n : Nat) (s : State) :
    (drew n s).sessions = s.sessions := rfl
@[simp] theorem drew_keys (n : Nat) (s : State) :
    (drew n s).keys = s.keys := rfl
@[simp] theorem drew_certificate (n : Nat) (s : State) :
    (drew n s).certificate = s.certificate := rfl
@[simp] theorem drew_slices (n : Nat) (s : State) :
    (drew n s).slices = s.slices := rfl
@[simp] theorem drew_sliceGen (n : Nat) (s : State) :
    (drew n s).sliceGen = s.sliceGen := rfl
@[simp] theorem drew_scrubMib (n : Nat) (s : State) :
    (drew n s).scrubMib = s.scrubMib := rfl
@[simp] theorem drew_stu (n : Nat) (s : State) :
    (drew n s).stu = s.stu := rfl
@[simp] theorem drew_fwPorts (n : Nat) (s : State) :
    (drew n s).fwPorts = s.fwPorts := rfl
@[simp] theorem drew_thermal (n : Nat) (s : State) :
    (drew n s).thermal = s.thermal := rfl
@[simp] theorem drew_supply (n : Nat) (s : State) :
    (drew n s).supply = s.supply := rfl
@[simp] theorem drew_faults (n : Nat) (s : State) :
    (drew n s).faults = s.faults := rfl
@[simp] theorem drew_book (n : Nat) (s : State) :
    (drew n s).book = s.book := rfl
@[simp] theorem drew_flushImage (n : Nat) (s : State) :
    (drew n s).flushImage = s.flushImage := rfl
@[simp] theorem drew_bookSlots (n : Nat) (s : State) :
    (drew n s).bookSlots = s.bookSlots := rfl
@[simp] theorem drew_presence (n : Nat) (s : State) :
    (drew n s).presence = s.presence := rfl
@[simp] theorem drew_startup (n : Nat) (s : State) :
    (drew n s).startup = s.startup := rfl

/-! ### `bookCount` -/

@[simp] theorem bookCount_pending (i : Nat) (s : State) :
    (bookCount i s).pending = s.pending := rfl
@[simp] theorem bookCount_datum (i : Nat) (s : State) :
    (bookCount i s).datum = s.datum := rfl
@[simp] theorem bookCount_vaon (i : Nat) (s : State) :
    (bookCount i s).vaon = s.vaon := rfl
@[simp] theorem bookCount_oscillator (i : Nat) (s : State) :
    (bookCount i s).oscillator = s.oscillator := rfl
@[simp] theorem bookCount_copies (i : Nat) (s : State) :
    (bookCount i s).copies = s.copies := rfl
@[simp] theorem bookCount_opsec (i : Nat) (s : State) :
    (bookCount i s).opsec = s.opsec := rfl
@[simp] theorem bookCount_secAt (i : Nat) (s : State) :
    (bookCount i s).secAt = s.secAt := rfl
@[simp] theorem bookCount_pcc (i : Nat) (s : State) :
    (bookCount i s).pcc = s.pcc := rfl
@[simp] theorem bookCount_drawn (i : Nat) (s : State) :
    (bookCount i s).drawn = s.drawn := rfl
@[simp] theorem bookCount_regions (i : Nat) (s : State) :
    (bookCount i s).regions = s.regions := rfl
@[simp] theorem bookCount_domains (i : Nat) (s : State) :
    (bookCount i s).domains = s.domains := rfl
@[simp] theorem bookCount_powerQueue (i : Nat) (s : State) :
    (bookCount i s).powerQueue = s.powerQueue := rfl
@[simp] theorem bookCount_arbiters (i : Nat) (s : State) :
    (bookCount i s).arbiters = s.arbiters := rfl
@[simp] theorem bookCount_dispatched (i : Nat) (s : State) :
    (bookCount i s).dispatched = s.dispatched := rfl
@[simp] theorem bookCount_ledger (i : Nat) (s : State) :
    (bookCount i s).ledger = s.ledger := rfl
@[simp] theorem bookCount_late (i : Nat) (s : State) :
    (bookCount i s).late = s.late := rfl
@[simp] theorem bookCount_vcore (i : Nat) (s : State) :
    (bookCount i s).vcore = s.vcore := rfl
@[simp] theorem bookCount_base (i : Nat) (s : State) :
    (bookCount i s).base = s.base := rfl
@[simp] theorem bookCount_ports (i : Nat) (s : State) :
    (bookCount i s).ports = s.ports := rfl
@[simp] theorem bookCount_features (i : Nat) (s : State) :
    (bookCount i s).features = s.features := rfl
@[simp] theorem bookCount_mi (i : Nat) (s : State) :
    (bookCount i s).mi = s.mi := rfl
@[simp] theorem bookCount_held (i : Nat) (s : State) :
    (bookCount i s).held = s.held := rfl
@[simp] theorem bookCount_decided (i : Nat) (s : State) :
    (bookCount i s).decided = s.decided := rfl
@[simp] theorem bookCount_writes (i : Nat) (s : State) :
    (bookCount i s).writes = s.writes := rfl
@[simp] theorem bookCount_lines (i : Nat) (s : State) :
    (bookCount i s).lines = s.lines := rfl
@[simp] theorem bookCount_holdUp (i : Nat) (s : State) :
    (bookCount i s).holdUp = s.holdUp := rfl
@[simp] theorem bookCount_dump (i : Nat) (s : State) :
    (bookCount i s).dump = s.dump := rfl
@[simp] theorem bookCount_resvs (i : Nat) (s : State) :
    (bookCount i s).resvs = s.resvs := rfl
@[simp] theorem bookCount_resvGen (i : Nat) (s : State) :
    (bookCount i s).resvGen = s.resvGen := rfl
@[simp] theorem bookCount_namespaces (i : Nat) (s : State) :
    (bookCount i s).namespaces = s.namespaces := rfl
@[simp] theorem bookCount_turns (i : Nat) (s : State) :
    (bookCount i s).turns = s.turns := rfl
@[simp] theorem bookCount_nsMade (i : Nat) (s : State) :
    (bookCount i s).nsMade = s.nsMade := rfl
@[simp] theorem bookCount_media (i : Nat) (s : State) :
    (bookCount i s).media = s.media := rfl
@[simp] theorem bookCount_smart (i : Nat) (s : State) :
    (bookCount i s).smart = s.smart := rfl
@[simp] theorem bookCount_dram (i : Nat) (s : State) :
    (bookCount i s).dram = s.dram := rfl
@[simp] theorem bookCount_setU (i : Nat) (s : State) :
    (bookCount i s).setU = s.setU := rfl
@[simp] theorem bookCount_cores (i : Nat) (s : State) :
    (bookCount i s).cores = s.cores := rfl
@[simp] theorem bookCount_tasks (i : Nat) (s : State) :
    (bookCount i s).tasks = s.tasks := rfl
@[simp] theorem bookCount_gens (i : Nat) (s : State) :
    (bookCount i s).gens = s.gens := rfl
@[simp] theorem bookCount_flows (i : Nat) (s : State) :
    (bookCount i s).flows = s.flows := rfl
@[simp] theorem bookCount_poolTab (i : Nat) (s : State) :
    (bookCount i s).poolTab = s.poolTab := rfl
@[simp] theorem bookCount_progs (i : Nat) (s : State) :
    (bookCount i s).progs = s.progs := rfl
@[simp] theorem bookCount_invs (i : Nat) (s : State) :
    (bookCount i s).invs = s.invs := rfl
@[simp] theorem bookCount_waitingInvokes (i : Nat) (s : State) :
    (bookCount i s).waitingInvokes = s.waitingInvokes := rfl
@[simp] theorem bookCount_scans (i : Nat) (s : State) :
    (bookCount i s).scans = s.scans := rfl
@[simp] theorem bookCount_accounts (i : Nat) (s : State) :
    (bookCount i s).accounts = s.accounts := rfl
@[simp] theorem bookCount_results (i : Nat) (s : State) :
    (bookCount i s).results = s.results := rfl
@[simp] theorem bookCount_resultGens (i : Nat) (s : State) :
    (bookCount i s).resultGens = s.resultGens := rfl
@[simp] theorem bookCount_tables (i : Nat) (s : State) :
    (bookCount i s).tables = s.tables := rfl
@[simp] theorem bookCount_bankReady (i : Nat) (s : State) :
    (bookCount i s).bankReady = s.bankReady := rfl
@[simp] theorem bookCount_sets (i : Nat) (s : State) :
    (bookCount i s).sets = s.sets := rfl
@[simp] theorem bookCount_oldSets (i : Nat) (s : State) :
    (bookCount i s).oldSets = s.oldSets := rfl
@[simp] theorem bookCount_filters (i : Nat) (s : State) :
    (bookCount i s).filters = s.filters := rfl
@[simp] theorem bookCount_contexts (i : Nat) (s : State) :
    (bookCount i s).contexts = s.contexts := rfl
@[simp] theorem bookCount_sessions (i : Nat) (s : State) :
    (bookCount i s).sessions = s.sessions := rfl
@[simp] theorem bookCount_keys (i : Nat) (s : State) :
    (bookCount i s).keys = s.keys := rfl
@[simp] theorem bookCount_certificate (i : Nat) (s : State) :
    (bookCount i s).certificate = s.certificate := rfl
@[simp] theorem bookCount_slices (i : Nat) (s : State) :
    (bookCount i s).slices = s.slices := rfl
@[simp] theorem bookCount_sliceGen (i : Nat) (s : State) :
    (bookCount i s).sliceGen = s.sliceGen := rfl
@[simp] theorem bookCount_scrubMib (i : Nat) (s : State) :
    (bookCount i s).scrubMib = s.scrubMib := rfl
@[simp] theorem bookCount_stu (i : Nat) (s : State) :
    (bookCount i s).stu = s.stu := rfl
@[simp] theorem bookCount_fwPorts (i : Nat) (s : State) :
    (bookCount i s).fwPorts = s.fwPorts := rfl
@[simp] theorem bookCount_thermal (i : Nat) (s : State) :
    (bookCount i s).thermal = s.thermal := rfl
@[simp] theorem bookCount_supply (i : Nat) (s : State) :
    (bookCount i s).supply = s.supply := rfl
@[simp] theorem bookCount_faults (i : Nat) (s : State) :
    (bookCount i s).faults = s.faults := rfl
@[simp] theorem bookCount_flushImage (i : Nat) (s : State) :
    (bookCount i s).flushImage = s.flushImage := rfl
@[simp] theorem bookCount_bookSlots (i : Nat) (s : State) :
    (bookCount i s).bookSlots = s.bookSlots := rfl
@[simp] theorem bookCount_presence (i : Nat) (s : State) :
    (bookCount i s).presence = s.presence := rfl
@[simp] theorem bookCount_startup (i : Nat) (s : State) :
    (bookCount i s).startup = s.startup := rfl

/-! ### `putView` -/

@[simp] theorem putView_pending (v : View) (s : State) :
    (putView v s).pending = s.pending := rfl
@[simp] theorem putView_datum (v : View) (s : State) :
    (putView v s).datum = s.datum := rfl
@[simp] theorem putView_vaon (v : View) (s : State) :
    (putView v s).vaon = s.vaon := rfl
@[simp] theorem putView_oscillator (v : View) (s : State) :
    (putView v s).oscillator = s.oscillator := rfl
@[simp] theorem putView_copies (v : View) (s : State) :
    (putView v s).copies = s.copies := rfl
@[simp] theorem putView_opsec (v : View) (s : State) :
    (putView v s).opsec = s.opsec := rfl
@[simp] theorem putView_secAt (v : View) (s : State) :
    (putView v s).secAt = s.secAt := rfl
@[simp] theorem putView_pcc (v : View) (s : State) :
    (putView v s).pcc = s.pcc := rfl
@[simp] theorem putView_drawn (v : View) (s : State) :
    (putView v s).drawn = s.drawn := rfl
@[simp] theorem putView_regions (v : View) (s : State) :
    (putView v s).regions = s.regions := rfl
@[simp] theorem putView_domains (v : View) (s : State) :
    (putView v s).domains = s.domains := rfl
@[simp] theorem putView_powerQueue (v : View) (s : State) :
    (putView v s).powerQueue = s.powerQueue := rfl
@[simp] theorem putView_arbiters (v : View) (s : State) :
    (putView v s).arbiters = s.arbiters := rfl
@[simp] theorem putView_dispatched (v : View) (s : State) :
    (putView v s).dispatched = s.dispatched := rfl
@[simp] theorem putView_ledger (v : View) (s : State) :
    (putView v s).ledger = s.ledger := rfl
@[simp] theorem putView_late (v : View) (s : State) :
    (putView v s).late = s.late := rfl
@[simp] theorem putView_vcore (v : View) (s : State) :
    (putView v s).vcore = s.vcore := rfl
@[simp] theorem putView_base (v : View) (s : State) :
    (putView v s).base = s.base := rfl
@[simp] theorem putView_ports (v : View) (s : State) :
    (putView v s).ports = s.ports := rfl
@[simp] theorem putView_features (v : View) (s : State) :
    (putView v s).features = s.features := rfl
@[simp] theorem putView_mi (v : View) (s : State) :
    (putView v s).mi = s.mi := rfl
@[simp] theorem putView_held (v : View) (s : State) :
    (putView v s).held = s.held := rfl
@[simp] theorem putView_decided (v : View) (s : State) :
    (putView v s).decided = s.decided := rfl
@[simp] theorem putView_writes (v : View) (s : State) :
    (putView v s).writes = s.writes := rfl
@[simp] theorem putView_lines (v : View) (s : State) :
    (putView v s).lines = s.lines := rfl
@[simp] theorem putView_holdUp (v : View) (s : State) :
    (putView v s).holdUp = s.holdUp := rfl
@[simp] theorem putView_dump (v : View) (s : State) :
    (putView v s).dump = s.dump := rfl
@[simp] theorem putView_resvs (v : View) (s : State) :
    (putView v s).resvs = s.resvs := rfl
@[simp] theorem putView_resvGen (v : View) (s : State) :
    (putView v s).resvGen = s.resvGen := rfl
@[simp] theorem putView_namespaces (v : View) (s : State) :
    (putView v s).namespaces = s.namespaces := rfl
@[simp] theorem putView_turns (v : View) (s : State) :
    (putView v s).turns = s.turns := rfl
@[simp] theorem putView_nsMade (v : View) (s : State) :
    (putView v s).nsMade = s.nsMade := rfl
@[simp] theorem putView_media (v : View) (s : State) :
    (putView v s).media = s.media := rfl
@[simp] theorem putView_smart (v : View) (s : State) :
    (putView v s).smart = s.smart := rfl
@[simp] theorem putView_dram (v : View) (s : State) :
    (putView v s).dram = s.dram := rfl
@[simp] theorem putView_setU (v : View) (s : State) :
    (putView v s).setU = s.setU := rfl
@[simp] theorem putView_gens (v : View) (s : State) :
    (putView v s).gens = s.gens := rfl
@[simp] theorem putView_flows (v : View) (s : State) :
    (putView v s).flows = s.flows := rfl
@[simp] theorem putView_poolTab (v : View) (s : State) :
    (putView v s).poolTab = s.poolTab := rfl
@[simp] theorem putView_progs (v : View) (s : State) :
    (putView v s).progs = s.progs := rfl
@[simp] theorem putView_invs (v : View) (s : State) :
    (putView v s).invs = s.invs := rfl
@[simp] theorem putView_waitingInvokes (v : View) (s : State) :
    (putView v s).waitingInvokes = s.waitingInvokes := rfl
@[simp] theorem putView_scans (v : View) (s : State) :
    (putView v s).scans = s.scans := rfl
@[simp] theorem putView_accounts (v : View) (s : State) :
    (putView v s).accounts = s.accounts := rfl
@[simp] theorem putView_results (v : View) (s : State) :
    (putView v s).results = s.results := rfl
@[simp] theorem putView_resultGens (v : View) (s : State) :
    (putView v s).resultGens = s.resultGens := rfl
@[simp] theorem putView_tables (v : View) (s : State) :
    (putView v s).tables = s.tables := rfl
@[simp] theorem putView_bankReady (v : View) (s : State) :
    (putView v s).bankReady = s.bankReady := rfl
@[simp] theorem putView_sets (v : View) (s : State) :
    (putView v s).sets = s.sets := rfl
@[simp] theorem putView_oldSets (v : View) (s : State) :
    (putView v s).oldSets = s.oldSets := rfl
@[simp] theorem putView_filters (v : View) (s : State) :
    (putView v s).filters = s.filters := rfl
@[simp] theorem putView_contexts (v : View) (s : State) :
    (putView v s).contexts = s.contexts := rfl
@[simp] theorem putView_sessions (v : View) (s : State) :
    (putView v s).sessions = s.sessions := rfl
@[simp] theorem putView_keys (v : View) (s : State) :
    (putView v s).keys = s.keys := rfl
@[simp] theorem putView_certificate (v : View) (s : State) :
    (putView v s).certificate = s.certificate := rfl
@[simp] theorem putView_slices (v : View) (s : State) :
    (putView v s).slices = s.slices := rfl
@[simp] theorem putView_sliceGen (v : View) (s : State) :
    (putView v s).sliceGen = s.sliceGen := rfl
@[simp] theorem putView_scrubMib (v : View) (s : State) :
    (putView v s).scrubMib = s.scrubMib := rfl
@[simp] theorem putView_stu (v : View) (s : State) :
    (putView v s).stu = s.stu := rfl
@[simp] theorem putView_fwPorts (v : View) (s : State) :
    (putView v s).fwPorts = s.fwPorts := rfl
@[simp] theorem putView_thermal (v : View) (s : State) :
    (putView v s).thermal = s.thermal := rfl
@[simp] theorem putView_supply (v : View) (s : State) :
    (putView v s).supply = s.supply := rfl
@[simp] theorem putView_faults (v : View) (s : State) :
    (putView v s).faults = s.faults := rfl
@[simp] theorem putView_book (v : View) (s : State) :
    (putView v s).book = s.book := rfl
@[simp] theorem putView_flushImage (v : View) (s : State) :
    (putView v s).flushImage = s.flushImage := rfl
@[simp] theorem putView_bookSlots (v : View) (s : State) :
    (putView v s).bookSlots = s.bookSlots := rfl
@[simp] theorem putView_presence (v : View) (s : State) :
    (putView v s).presence = s.presence := rfl
@[simp] theorem putView_startup (v : View) (s : State) :
    (putView v s).startup = s.startup := rfl

end Sys2Proof.Machine
end

