-- ==== Sys2Proof/Laws/Issue.lean ====
section
/-! SUPPORT. How an Opxus instruction issues and retires, said once: what a core shows, what `issue` answers when the
earlier checks pass, and what is left after an instruction that writes registers or predicates only. -/

namespace Sys2Proof.Machine

/-! ### What a core shows -/

theorem running_eq {s : State} {c : CoreId} {v : View} (h : running s c = some v) :
    v.c = c.val ∧ v.core = coreOf s c.val ∧ v.core.run = some v.t ∧ taskOf s v.t = some v.task ∧
      domainOn s (c.val / 32) (c.val % 32) = true := by
  unfold running at h
  cases hr : (coreOf s c.val).run with
  | none => simp [hr] at h
  | some t =>
    simp only [hr] at h
    cases hk : taskOf s t with
    | none => simp [hk] at h
    | some k =>
      simp only [hk, Option.map_some] at h
      split at h
      · next hd =>
        simp only [Option.some.injEq] at h
        subst h
        exact ⟨rfl, rfl, hr, hk, hd⟩
      · cases h

theorem running_of {s : State} {c : CoreId} {v : View} (hc : v.c = c.val) (hu : coreOf s c.val = v.core)
    (hr : v.core.run = some v.t) (hk : taskOf s v.t = some v.task)
    (hd : domainOn s (c.val / 32) (c.val % 32) = true) : running s c = some v := by
  obtain ⟨vc, vt, vk, vu⟩ := v
  simp only at hc hu hr hk
  simp [running, hu, hr, hk, hc, hd]

/-- A core shows what was written to it. -/
theorem running_putView {s : State} {c : CoreId} {v : View} (hc : v.c = c.val) (hr : v.core.run = some v.t)
    (hd : domainOn s (c.val / 32) (c.val % 32) = true) : running (putView v s) c = some v := by
  apply running_of hc
  · simp [putView, hc]
  · exact hr
  · simp [putView]
  · exact hd

/-! ### Issue (R310) -/

/-- Past the checks that come before it, an instruction acts as its body says. -/
theorem issue_of {s : State} {c : CoreId} {g : Guard} {v : View} (h : Issues s c g v) (w : Word)
    (body : View → State → Issued) :
    issue c g w true body s = match body v s with
      | .retire s => retireAt v (viewPc v + 4) s
      | .jump s x => retireAt v x s
      | .trap s cause tval code => takeTrap v cause tval code s
      | .done s => s := by
  obtain ⟨hr, hb, hf, hg⟩ := h
  have hb' : (!viewFw v && v.task.exhausted) = false := by
    cases hb with
    | inl h => simp [h]
    | inr h => simp [h]
  simp only [issue, hr, hb', hf, hg, decide_true, Bool.not_true, Bool.false_eq_true, if_false] <;> rfl

/-! ### Retirement (R303) -/

/-- The view after retirement. -/
def retired (v v' : View) (pc : Word) : View :=
  if v.core.trapped then { v' with core := { v'.core with hpc := pc } }
  else { v' with task := countStep { v'.task with pc := pc } }

theorem onlyTask_putView {s : State} {v v' : View} (ht : v'.t = v.t) (hc : v'.c = v.c) :
    OnlyTask s (putView v' s) v := by
  refine ⟨rfl, ?_, ?_⟩
  · intro i hi
    simp only [putView, taskOf_setCore]
    exact taskOf_setTask_ne s _ (by rw [ht]; exact hi)
  · intro j hj
    simp only [putView]
    rw [coreOf_setCore_ne _ _ (by rw [hc]; exact hj), coreOf_setTask]

/-- What an operand write may change: registers and predicates of the task, and those of the handler's bank (R277,
R312). -/
def OperandsOnly (v v' : View) : Prop :=
  v' = { v with
    task := { v.task with regs := v'.task.regs, preds := v'.task.preds }
    core := { v.core with bankRegs := v'.core.bankRegs, bankPreds := v'.core.bankPreds } } ∧
  (v.core.trapped = true → (∀ r : Reg, 28 ≤ r.val → v'.task.regs[r] = v.task.regs[r]) ∧
    ∀ i, 4 ≤ i → v'.task.preds.getLsbD i = v.task.preds.getLsbD i) ∧
  (v.core.trapped = false → v'.core.bankRegs = v.core.bankRegs ∧ v'.core.bankPreds = v.core.bankPreds)

theorem counted_countStep (k : Task) :
    if k.fw = true then (countStep k).steps = k.steps ∧ (countStep k).exhausted = k.exhausted
    else if k.steps = 0 then (countStep k).steps = 0 ∧ (countStep k).exhausted = true
    else (countStep k).steps = k.steps - 1 ∧ (countStep k).exhausted = k.exhausted := by
  unfold countStep
  by_cases h : k.fw = true
  · rw [if_pos h, if_pos h]
    exact ⟨rfl, rfl⟩
  · rw [if_neg h, if_neg h]
    by_cases h2 : k.steps = 0
    · rw [if_pos h2, if_pos h2]
      exact ⟨h2, rfl⟩
    · rw [if_neg h2, if_neg h2]
      exact ⟨rfl, rfl⟩

theorem countStep_eq (k : Task) :
    countStep k = { k with steps := (countStep k).steps, exhausted := (countStep k).exhausted } := by
  unfold countStep
  split
  · rfl
  · split <;> rfl

theorem advanced_retired {v v' : View} (pc : Word) (h : OperandsOnly v v') : Advanced v (retired v v' pc) pc := by
  obtain ⟨h1, h2, h3⟩ := h
  have e : ∃ rg pr br bp, v' = { v with
      task := { v.task with regs := rg, preds := pr }
      core := { v.core with bankRegs := br, bankPreds := bp } } := ⟨_, _, _, _, h1⟩
  clear h1
  obtain ⟨rg, pr, br, bp, rfl⟩ := e
  by_cases ht : v.core.trapped = true
  · unfold Advanced retired
    rw [if_pos ht]
    refine ⟨rfl, ?_, ?_, fun _ => ⟨rfl, (h2 ht).1, (h2 ht).2⟩, fun h => ?_⟩
    · simp [viewPc, ht]
    · unfold Counted
      rw [if_pos (Or.inl ht)]
      exact ⟨rfl, rfl⟩
    · rw [ht] at h
      exact absurd h (by decide)
  · have ht' : v.core.trapped = false := by simpa using ht
    have hc := counted_countStep { v.task with regs := rg, preds := pr, pc := pc }
    unfold Advanced retired
    rw [if_neg ht, countStep_eq]
    refine ⟨rfl, ?_, ?_, fun h => absurd h ht, fun _ => ⟨rfl, (h3 ht').1, (h3 ht').2⟩⟩
    · simp [viewPc, ht']
    · unfold Counted
      simpa [ht'] using hc

theorem rd_retired (v v' : View) (pc : Word) (r : Reg) :
    rd (retired v v' pc) r = rd v' r := by
  unfold retired
  split
  · simp [rd]
  · rw [countStep_eq]
    simp [rd]

theorem rdp_retired (v v' : View) (pc : Word) (p : PReg) : rdp (retired v v' pc) p = rdp v' p := by
  unfold retired
  split
  · simp [rdp]
  · rw [countStep_eq]
    simp [rdp]

/-! ### Operand writes (R277, R312) -/

theorem wr_c (v : View) (r : Reg) (x : Word) : (wr v r x).c = v.c := by
  unfold wr
  split
  · rfl
  · split <;> rfl

theorem wr_t (v : View) (r : Reg) (x : Word) : (wr v r x).t = v.t := by
  unfold wr
  split
  · rfl
  · split <;> rfl

theorem wr_zero (v : View) (x : Word) : wr v 0 x = v := rfl

theorem wr_bank (v : View) (d : Reg) (x : Word) (hd : d ≠ 0) (hb : v.core.trapped ∧ 28 ≤ d.val) :
    wr v d x = { v with core := { v.core with
      bankRegs := v.core.bankRegs.set (d.val - 28) x (by have := d.isLt; omega) } } := by
  unfold wr
  rw [if_neg hd, dif_pos hb]

theorem wr_task (v : View) (d : Reg) (x : Word) (hd : d ≠ 0) (hb : ¬(v.core.trapped ∧ 28 ≤ d.val)) :
    wr v d x = { v with task := { v.task with regs := v.task.regs.set d.val x d.isLt } } := by
  unfold wr
  rw [if_neg hd, dif_neg hb]

theorem rd_zero (v : View) : rd v 0 = 0 := rfl

theorem rd_bank (v : View) (r : Reg) (hr : r ≠ 0) (hb : v.core.trapped ∧ 28 ≤ r.val) :
    rd v r = v.core.bankRegs[r.val - 28]'(by have := r.isLt; omega) := by
  unfold rd
  rw [if_neg hr, dif_pos hb]

theorem rd_task (v : View) (r : Reg) (hr : r ≠ 0) (hb : ¬(v.core.trapped ∧ 28 ≤ r.val)) : rd v r = v.task.regs[r] := by
  unfold rd
  rw [if_neg hr, dif_neg hb]

theorem rd_wr (v : View) (d r : Reg) (x : Word) : rd (wr v d x) r = setAt v d x r := by
  unfold setAt
  by_cases hd : d = 0
  · subst hd
    simp [wr_zero]
  by_cases hr : r = 0
  · subst hr
    simp [rd_zero, Ne.symm hd]
  by_cases hb : v.core.trapped ∧ 28 ≤ d.val
  · rw [wr_bank v d x hd hb]
    by_cases hq : v.core.trapped ∧ 28 ≤ r.val
    · rw [rd_bank v r hr hq, rd_bank _ r hr (by exact hq), Vector.getElem_set]
      by_cases e : r = d
      · simp [e, hd]
      · have : ¬(d.val - 28 = r.val - 28) := fun q => e (Fin.ext (by omega))
        simp [e, this]
    · have e : r ≠ d := fun q => hq (q ▸ hb)
      rw [rd_task v r hr hq, rd_task _ r hr (by exact hq)]
      simp [e]
  · rw [wr_task v d x hd hb]
    by_cases hq : v.core.trapped ∧ 28 ≤ r.val
    · have e : r ≠ d := fun q => hb (q ▸ hq)
      rw [rd_bank v r hr hq, rd_bank _ r hr (by exact hq)]
      simp [e]
    · rw [rd_task v r hr hq, rd_task _ r hr (by exact hq)]
      show (v.task.regs.set d.val x d.isLt)[r.val] = if r = d ∧ d ≠ 0 then x else v.task.regs[r.val]
      rw [Vector.getElem_set]
      by_cases e : r = d
      · simp [e, hd]
      · have : ¬(d.val = r.val) := fun q => e (Fin.ext q.symm)
        simp [e, this]

theorem rdp_wr (v : View) (d : Reg) (x : Word) (p : PReg) : rdp (wr v d x) p = rdp v p := by
  unfold wr
  split
  · rfl
  · split <;> rfl

theorem operandsOnly_refl (v : View) : OperandsOnly v v :=
  ⟨rfl, fun _ => ⟨fun _ _ => rfl, fun _ _ => rfl⟩, fun _ => ⟨rfl, rfl⟩⟩

theorem operandsOnly_wr (v : View) (d : Reg) (x : Word) : OperandsOnly v (wr v d x) := by
  by_cases hd : d = 0
  · subst hd
    exact operandsOnly_refl v
  by_cases hb : v.core.trapped ∧ 28 ≤ d.val
  · rw [wr_bank v d x hd hb]
    refine ⟨rfl, fun _ => ⟨fun _ _ => rfl, fun _ _ => rfl⟩, fun h => ?_⟩
    rw [hb.1] at h
    exact absurd h (by decide)
  · rw [wr_task v d x hd hb]
    refine ⟨rfl, fun h => ⟨fun r hr => ?_, fun _ _ => rfl⟩, fun _ => ⟨rfl, rfl⟩⟩
    have hne : ¬(d.val = r.val) := fun q => hb ⟨h, by omega⟩
    show (v.task.regs.set d.val x d.isLt)[r.val] = v.task.regs[r.val]
    rw [Vector.getElem_set]
    simp [hne]

theorem operandsOnly_trans {u v w : View} (h : OperandsOnly u v) (k : OperandsOnly v w) : OperandsOnly u w := by
  obtain ⟨h1, h2, h3⟩ := h
  obtain ⟨k1, k2, k3⟩ := k
  have e : v.core.trapped = u.core.trapped := by rw [h1]
  rw [e] at k2 k3
  refine ⟨?_, fun t => ⟨fun r hr => ?_, fun i hi => ?_⟩, fun t => ?_⟩
  · rw [k1, h1]
  · rw [(k2 t).1 r hr, (h2 t).1 r hr]
  · rw [(k2 t).2 i hi, (h2 t).2 i hi]
  · rw [(k3 t).1, (k3 t).2]
    exact h3 t

theorem getLsbD_putBit {w : Nat} (x : BitVec w) (i j : Nat) (b : Bool) (h : i < w) :
    (putBit x i b).getLsbD j = if j = i then b else x.getLsbD j := by
  have e : (BitVec.ofNat w (2 ^ i)).getLsbD j = decide (j = i) := by
    rw [BitVec.getLsbD_ofNat, Nat.testBit_two_pow]
    by_cases q : j = i
    · simp [q, h]
    · simp [q, Ne.symm q]
  unfold putBit
  cases b
  · simp only [Bool.false_eq_true, if_false, BitVec.getLsbD_and, BitVec.getLsbD_not, e]
    by_cases q : j = i
    · simp [q]
    · by_cases l : j < w
      · simp [q, l]
      · simp [q, l, BitVec.getLsbD_of_ge x j (by omega)]
  · simp only [if_true, BitVec.getLsbD_or, e]
    by_cases q : j = i <;> simp [q]

theorem wrp_bank (v : View) (p : PReg) (b : Bool) (hp : p ≠ 0) (hb : v.core.trapped = true ∧ 4 ≤ p.val) :
    wrp v p b = { v with core := { v.core with bankPreds := putBit v.core.bankPreds (p.val - 4) b } } := by
  unfold wrp
  rw [if_neg hp, if_pos (by simp [hb])]

theorem wrp_task (v : View) (p : PReg) (b : Bool) (hp : p ≠ 0) (hb : ¬(v.core.trapped = true ∧ 4 ≤ p.val)) :
    wrp v p b = { v with task := { v.task with preds := putBit v.task.preds p.val b } } := by
  unfold wrp
  rw [if_neg hp, if_neg (by simpa using hb)]

theorem rdp_bank (v : View) (p : PReg) (hp : p ≠ 0) (hb : v.core.trapped = true ∧ 4 ≤ p.val) :
    rdp v p = v.core.bankPreds.getLsbD (p.val - 4) := by
  unfold rdp
  rw [if_neg hp, if_pos (by simp [hb])]

theorem rdp_task (v : View) (p : PReg) (hp : p ≠ 0) (hb : ¬(v.core.trapped = true ∧ 4 ≤ p.val)) :
    rdp v p = v.task.preds.getLsbD p.val := by
  unfold rdp
  rw [if_neg hp, if_neg (by simpa using hb)]

theorem rdp_wrp (v : View) (p q : PReg) (b : Bool) : rdp (wrp v p b) q = setPred (rdp v) p b q := by
  unfold setPred
  by_cases hp : p = 0
  · subst hp
    simp [wrp]
  by_cases hq : q = 0
  · subst hq
    simp [rdp, Ne.symm hp]
  by_cases hb : v.core.trapped = true ∧ 4 ≤ p.val
  · rw [wrp_bank v p b hp hb]
    by_cases hc : v.core.trapped = true ∧ 4 ≤ q.val
    · rw [rdp_bank v q hq hc, rdp_bank _ q hq (by exact hc), getLsbD_putBit _ _ _ _ (by have := p.isLt; omega)]
      by_cases e : q = p
      · simp [e, hp]
      · have : ¬(q.val - 4 = p.val - 4) := fun x => e (Fin.ext (by omega))
        simp [e, this]
    · have e : q ≠ p := fun x => hc (x ▸ hb)
      rw [rdp_task v q hq hc, rdp_task _ q hq (by exact hc)]
      simp [e]
  · rw [wrp_task v p b hp hb]
    by_cases hc : v.core.trapped = true ∧ 4 ≤ q.val
    · have e : q ≠ p := fun x => hb (x ▸ hc)
      rw [rdp_bank v q hq hc, rdp_bank _ q hq (by exact hc)]
      simp [e]
    · rw [rdp_task v q hq hc, rdp_task _ q hq (by exact hc), getLsbD_putBit _ _ _ _ p.isLt]
      by_cases e : q = p
      · simp [e, hp]
      · have : ¬(q.val = p.val) := fun x => e (Fin.ext x)
        simp [e, this]

theorem rd_wrp (v : View) (p : PReg) (b : Bool) (r : Reg) : rd (wrp v p b) r = rd v r := by
  unfold wrp
  split
  · rfl
  · split <;> rfl

theorem operandsOnly_wrp (v : View) (p : PReg) (b : Bool) : OperandsOnly v (wrp v p b) := by
  by_cases hp : p = 0
  · subst hp
    exact operandsOnly_refl v
  by_cases hb : v.core.trapped = true ∧ 4 ≤ p.val
  · rw [wrp_bank v p b hp hb]
    refine ⟨rfl, fun _ => ⟨fun _ _ => rfl, fun _ _ => rfl⟩, fun h => ?_⟩
    rw [hb.1] at h
    exact absurd h (by decide)
  · rw [wrp_task v p b hp hb]
    refine ⟨rfl, fun h => ⟨fun _ _ => rfl, fun i hi => ?_⟩, fun _ => ⟨rfl, rfl⟩⟩
    show (putBit v.task.preds p.val b).getLsbD i = _
    have hne : ¬(i = p.val) := fun q => hb ⟨h, by omega⟩
    rw [getLsbD_putBit _ _ _ _ p.isLt, if_neg hne]

/-! ### Instructions that write operands only -/

theorem onlyTask_trans {s t u : State} {v : View} (h : OnlyTask s t v) (k : OnlyTask t u v) : OnlyTask s u v := by
  obtain ⟨h1, h2, h3⟩ := h
  obtain ⟨k1, k2, k3⟩ := k
  refine ⟨?_, fun i hi => ?_, fun j hj => ?_⟩
  · rw [k1, h1]
  · rw [k2 i hi, h2 i hi]
  · rw [k3 j hj, h3 j hj]

theorem onlyTask_refl (s : State) (v : View) : OnlyTask s s v := ⟨rfl, fun _ _ => rfl, fun _ _ => rfl⟩

/-- Retirement as a change of the view. -/
theorem retireAt_eq {s : State} {c : CoreId} {v v' : View} {pc : Word} (h : running s c = some v') (hc : v.c = v'.c)
    (ht : v.t = v'.t) (hb : v.core.trapped = v'.core.trapped) :
    running (retireAt v pc s) c = some (retired v' v' pc) ∧ OnlyTask s (retireAt v pc s) v' := by
  obtain ⟨vc, vu, vr, vk, vd⟩ := running_eq h
  unfold retireAt retired
  rw [hb]
  by_cases hx : v'.core.trapped = true
  · rw [if_pos hx, if_pos hx]
    refine ⟨running_of vc ?_ vr ?_ vd, rfl, fun _ _ => rfl, fun j hj => ?_⟩
    · rw [hc, vc, coreOf_setCore_self, vu]
    · rw [taskOf_setCore]
      exact vk
    · exact coreOf_setCore_ne s _ (by rw [hc]; exact hj)
  · rw [if_neg hx, if_neg hx]
    refine ⟨running_of vc ?_ vr ?_ vd, rfl, fun i hi => ?_, fun _ _ => rfl⟩
    · rw [coreOf_modTask, vu]
    · rw [ht, taskOf_modTask_self, vk]
      rfl
    · exact taskOf_modTask_ne s _ (by rw [ht]; exact hi)

/-- An instruction that retires in a state `s2` where its task and core show `v'`. -/
theorem retiresAfter_of {i : Instr} {c : CoreId} {s s1 s2 : State} {v w v' : View} {pc : Word} {reg : Reg → Word}
    {pred : PReg → Bool} (he : exec i s = .next (retireAt v pc s2)) (h2 : running s2 c = some v')
    (hs : OnlyTask s1 s2 w) (ho : OperandsOnly w v') (hc : v.c = w.c) (ht : v.t = w.t)
    (hb : v.core.trapped = w.core.trapped) (hreg : ∀ r, rd v' r = reg r) (hpred : ∀ p, rdp v' p = pred p) :
    RetiresAfter i c s s1 w pc reg pred := by
  have hc' : w.c = v'.c := by rw [ho.1]
  have ht' : w.t = v'.t := by rw [ho.1]
  have hb' : w.core.trapped = v'.core.trapped := by rw [ho.1]
  obtain ⟨k1, k2⟩ := retireAt_eq (pc := pc) h2 (hc.trans hc') (ht.trans ht') (hb.trans hb')
  refine ⟨_, _, he, k1, ?_, ?_, ?_, ?_⟩
  · apply onlyTask_trans hs
    obtain ⟨a1, a2, a3⟩ := k2
    exact ⟨a1, fun i hi => a2 i (by rw [← ht']; exact hi), fun j hj => a3 j (by rw [← hc']; exact hj)⟩
  · have e := advanced_retired pc ho
    unfold retired at e ⊢
    rw [hb'] at e
    exact e
  · intro r
    rw [rd_retired, hreg]
  · intro p
    rw [rdp_retired, hpred]

/-- An instruction whose body only writes operands retires. -/
theorem retires_of {i : Instr} {c : CoreId} {g : Guard} {w : Word} {body : View → State → Issued} {s : State}
    {v v' : View} {reg : Reg → Word} {pred : PReg → Bool} (he : exec i s = .next (issue c g w true body s))
    (h : Issues s c g v) (hb : body v s = .retire (putView v' s)) (ho : OperandsOnly v v')
    (hreg : ∀ r, rd v' r = reg r) (hpred : ∀ p, rdp v' p = pred p) :
    Retires i c s v (viewPc v + 4) reg pred := by
  obtain ⟨vc, _, vrun, _, vd⟩ := running_eq h.1
  have ht : v'.t = v.t := by rw [ho.1]
  have hc : v'.c = v.c := by rw [ho.1]
  have hr : v'.core.run = some v'.t := by
    rw [ht, ← vrun, ho.1]
  refine retiresAfter_of (v := v) (s2 := putView v' s) ?_ (running_putView (hc.trans vc) hr vd)
    (onlyTask_putView ht hc) ho rfl rfl rfl hreg hpred
  rw [he, issue_of h, hb]

/-- An instruction that writes one register. -/
theorem retiresWith_of {i : Instr} {c : CoreId} {g : Guard} {w : Word} {d : Reg} {f : View → Word} {s : State} {v : View}
    {x : Word} (he : exec i s = .next (issue c g w true (toReg d f) s)) (h : Issues s c g v) (hx : f v = x) :
    RetiresWith i c s v d x := by
  apply retires_of he h (v' := wr v d (f v)) rfl (operandsOnly_wr v d _)
  · intro r
    rw [rd_wr, hx]
  · intro p
    exact rdp_wr v d _ p

end Sys2Proof.Machine
end

