-- ==== Sys2Proof/Laws/Ops.lean ====
section
/-! SUPPORT. What each shared operation of Machine/Ops.lean may change, said once: its result is the state before it
with the named fields taken from the result. A proof reads any other field off the equation. -/

namespace Sys2Proof.Machine

/-! ### The field book and events -/

theorem bookMax_only (k : Nat) (v : Int) (x : Nat) (s : State) :
    bookMax k v x s = { s with book := (bookMax k v x s).book } := by
  unfold bookMax
  split
  · rfl
  · split <;> rfl

theorem bookMin_only (k : Nat) (v : Int) (x : Nat) (s : State) :
    bookMin k v x s = { s with book := (bookMin k v x s).book } := by
  unfold bookMin
  split
  · rfl
  · split <;> rfl

theorem notice_only (a b c : Nat) (s : State) : notice a b c s = { s with ports := (notice a b c s).ports } := by
  unfold notice
  split <;> rfl

theorem smartEvent_only (a b : Nat) (s : State) : smartEvent a b s = { s with ports := (smartEvent a b s).ports } := by
  unfold smartEvent
  split <;> rfl

/-! ### The fault record -/

/-- Writing an entry changes the record, the field book and the ports alone (R517, R519). -/
theorem record_only (e : LogEntry) (s : State) :
    record e s = { s with faults := (record e s).faults, book := (record e s).book, ports := (record e s).ports } := by
  simp only [record]
  split <;> split <;> rfl

/-- An entry comes first in the record, under the next number and the stamps of the moment (R519). -/
theorem record_ring (e : LogEntry) (s : State) :
    (record e s).faults.ring =
      ({ e with seq := s.faults.newest + 1, datum := s.datum, opsec := s.opsec, pcc := s.pcc } :: s.faults.ring).take 256 := by
  simp only [record]
  split <;> split <;> rfl

theorem record_newest (e : LogEntry) (s : State) : (record e s).faults.newest = s.faults.newest + 1 := by
  simp only [record]
  split <;> split <;> rfl

/-- The record holds at most 256 entries, whatever it held. -/
theorem record_ring_length (e : LogEntry) (s : State) : (record e s).faults.ring.length ≤ 256 := by
  rw [record_ring]
  simp only [List.length_take]
  omega

theorem record_retired (e : LogEntry) (s : State) : (record e s).faults.retired = s.faults.retired := by
  simp only [record]
  split <;> split <;> rfl

theorem record_lanes (e : LogEntry) (s : State) : (record e s).faults.lanes = s.faults.lanes := by
  simp only [record]
  split <;> split <;> rfl

theorem atRiskNotice_only (r : Nat) (t : Site) (x : Nat) (s : State) :
    atRiskNotice r t x s =
      { s with
        faults := (atRiskNotice r t x s).faults
        book := (atRiskNotice r t x s).book
        ports := (atRiskNotice r t x s).ports } := by
  unfold atRiskNotice
  split
  · rfl
  · exact record_only _ _

/-! ### Retirement -/

/-- Bringing handshakes to the spacer state changes the arbiters alone (R15). -/
theorem toSpacer_only (p : Site → Bool) (s : State) : toSpacer p s = { s with arbiters := (toSpacer p s).arbiters } := rfl

/-- Retiring a unit takes its grants away, changes the list of retired units and starts the baseline computation (R15,
R44, R508). -/
theorem retireUnit_only (t : Site) (r : Bool) (s : State) :
    retireUnit t r s =
      { s with
        arbiters := (retireUnit t r s).arbiters
        faults := { s.faults with retired := (retireUnit t r s).faults.retired }
        base := (retireUnit t r s).base } := by
  unfold retireUnit
  split <;> rfl

theorem restoreUnit_only (t : Site) (s : State) :
    restoreUnit t s =
      { s with
        faults := { s.faults with retired := (restoreUnit t s).faults.retired }
        base := (restoreUnit t s).base } := by
  unfold restoreUnit
  split <;> rfl

/-- A unit is retired once it has been retired (R508). -/
theorem unitRetired_retireUnit (t : Site) (r : Bool) (s : State) : unitRetired (retireUnit t r s) t = true := by
  unfold retireUnit
  split
  · assumption
  · simp [unitRetired, baselineTrigger]

/-- A restored unit is not retired (R508). -/
theorem unitRetired_restoreUnit (t : Site) (s : State) : unitRetired (restoreUnit t s) t = false := by
  cases h : unitRetired s t with
  | true => simp [restoreUnit, h]; simp [unitRetired, baselineTrigger]
  | false => simp [restoreUnit, h]

/-- A lane mismatch changes the record, the field book, the ports, the baseline, the arbiters and the count of draws
(R502). -/
theorem laneFault_only (t : Site) (i : Nat) (h w : Bool) (s : State) :
    laneFault t i h w s =
      { s with
        drawn := (laneFault t i h w s).drawn
        arbiters := (laneFault t i h w s).arbiters
        faults := (laneFault t i h w s).faults
        book := (laneFault t i h w s).book
        ports := (laneFault t i h w s).ports
        base := (laneFault t i h w s).base } := by
  unfold laneFault recordDetected recordMasked
  dsimp only
  generalize (_ && h) = x
  split <;> split <;> (try rw [retireUnit_only]) <;> rw [record_only] <;> rfl

/-- So does the comparison of two lanes, whatever it finds. -/
theorem laneCheck_only (t : Site) (i : Nat) (c : LaneCheck) (s : State) :
    laneCheck t i c s =
      { s with
        drawn := (laneCheck t i c s).drawn
        arbiters := (laneCheck t i c s).arbiters
        faults := (laneCheck t i c s).faults
        book := (laneCheck t i c s).book
        ports := (laneCheck t i c s).ports
        base := (laneCheck t i c s).base } := by
  cases c with
  | agree => rfl
  | repeatAgrees => exact laneFault_only t t.index false false s
  | repeatDiffers => exact laneFault_only t i false true s

/-! ### Presence -/

theorem usePrivileged_only (i : Nat) (s : State) :
    usePrivileged i s = { s with presence := (usePrivileged i s).presence, book := (usePrivileged i s).book } := rfl

/-! ### Completions -/

/-- A completion changes the list of decided completions, its port's error log and the field book (R83, R529). -/
theorem completeAt_only (h : Sub) (st : Status) (a b : Nat) (d : List Byte) (n l : Nat) (s : State) :
    completeAt h st a b d n l s =
      { s with
        decided := (completeAt h st a b d n l s).decided
        ports := (completeAt h st a b d n l s).ports
        book := (completeAt h st a b d n l s).book } := by
  unfold completeAt
  dsimp only
  split <;> split <;> rfl

/-- It adds one completion, after those that wait (R83). -/
theorem completeAt_decided (h : Sub) (st : Status) (a b : Nat) (d : List Byte) (n l : Nat) (s : State) :
    (completeAt h st a b d n l s).decided = s.decided ++
      [{ h := h, sct := st.sct, sc := st.sc, dw0 := BitVec.ofNat 32 a, dw1 := BitVec.ofNat 32 b, data := d }] := by
  unfold completeAt
  dsimp only
  split <;> split <;> rfl

/-- Completing with success and no result adds the completion and nothing else. -/
theorem completeOk_eq (h : Sub) (s : State) :
    completeOk h s = { s with decided := s.decided ++
      [{ h := h, sct := 0, sc := 0, dw0 := 0, dw1 := 0, data := [] }] } := rfl

/-- A refusal changes what a completion changes. -/
theorem refuse_only (h : Sub) (st : Status) (s : State) :
    refuse h st s =
      { s with
        decided := (refuse h st s).decided
        ports := (refuse h st s).ports
        book := (refuse h st s).book } := completeAt_only ..

theorem refuse_decided (h : Sub) (st : Status) (s : State) :
    (refuse h st s).decided = s.decided ++
      [{ h := h, sct := st.sct, sc := st.sc, dw0 := 0, dw1 := 0, data := [] }] := completeAt_decided ..

/-! ### The boot directory -/

/-- Writing the directory changes its two copies alone (R544). -/
theorem writeDirectory_only (s : State) :
    writeDirectory s = { s with startup := { s.startup with
      dir0 := (writeDirectory s).startup.dir0, dir1 := (writeDirectory s).startup.dir1 } } := by
  unfold writeDirectory
  dsimp only
  split <;> rfl

/-! ### The tick -/

/-- The tick changes the datum and its copies alone (R22, R26). -/
theorem tick_only (s : State) : tick s = { s with datum := (tick s).datum, copies := (tick s).copies } := by
  unfold tick
  split <;> rfl

end Sys2Proof.Machine
end

