-- ==== Sys2Proof/WellFormed.lean ====
section
/-! DEFINITION. Well-formed commands: operands that a queue entry, a port access or an event can carry. The meanings are
total; nothing depends on well-formedness to run. -/

namespace Sys2Proof.WellFormed

/-- A number up to a bound. -/
def upTo (n x : Nat) : Bool := decide (x ≤ n)

/-- A 16-bit field. -/
def id16 (x : Nat) : Bool := decide (x < 65536)

/-- A 32-bit field. -/
def word32 (x : Nat) : Bool := decide (x < 2 ^ 32)

/-- A 64-bit LBA. -/
def lba64 (x : Nat) : Bool := decide (x < 2 ^ 64)

/-- A command of the admin queue: queue 0, a 16-bit command identifier (R79, R84, R88). -/
def adminCommand (h : Sub) : Bool := decide (h.sq = 0) && id16 h.cid

/-- A command of an I/O queue, 1 to 16,384 (R78, R85, R89). -/
def ioCommand (h : Sub) : Bool := decide (1 ≤ h.sq ∧ h.sq ≤ 16384) && id16 h.cid

/-- An access of 32 or 64 bits (R69). -/
def accessSize (n : Nat) : Bool := decide (n = 4 ∨ n = 8)

/-- A commit action other than 011b, which has a row of its own (R99). -/
def commitAction (n : Nat) : Bool := decide (n < 8 ∧ n ≠ 3)

/-- 1 to 256 ranges of Dataset Management. -/
def rangesOk (l : List (Nat × Nat)) : Bool := decide (1 ≤ l.length ∧ l.length ≤ 256) && l.all fun r => word32 r.2 && lba64 r.1

/-- A STAT port of a block engine or of the filters (R376, R377, R379). -/
def statPort (p : BitVec 12) : Bool := [0x208, 0x209, 0x20A, 0x20B, 0x508, 0x509, 0x607].contains p.toNat

/-- ACTION of Presence Arm (R536). -/
def presenceAction (a : Nat) (d : Cdw) : Bool := decide (d.d10.toNat % 4 = a)

/-- PHASE of Digest (R438). -/
def digestPhase (p : Nat) (d : Cdw) : Bool := decide (d.d11.toNat / 2 ^ 29 = p)

/-- PHASE of the row of a whole message, which takes the invalid ones too (R438). -/
def digestWholePhase (d : Cdw) : Bool := decide (d.d11.toNat / 2 ^ 29 = 0 ∨ 6 ≤ d.d11.toNat / 2 ^ 29)

/-- REMOVE of Pattern Set Load (R415). -/
def removeBit (b : Bool) (d : Cdw) : Bool := d.d11.getLsbD 16 == b

/-- OP of Key Array Configure (R392). -/
def configureOp (n : Nat) (data : List Byte) : Bool := decide (((data.head?).map (·.toNat)).getD 0 = n)

/-- A SITE: four bits of KIND, twelve of INDEX (R521). -/
def siteOk (t : Site) : Bool := decide (t.kind < 16 ∧ t.index < 4096)

end Sys2Proof.WellFormed

namespace Sys2Proof

open WellFormed

/-- A well-formed command. -/
def Instr.wf (i : Instr) : Bool :=
  match i with
  | .stallSentinelExpiry _ site _ => siteOk site
  | .fabricTransfer _ site _ => siteOk site
  | .datumAlarmFire task => upTo 16383 task
  | .baselineComputationStart trigger => upTo 4 trigger
  | .sqTailDoorbell _ qid value => upTo 16384 qid && word32 value
  | .cqHeadDoorbell _ qid value => upTo 16384 qid && word32 value
  | .ccShutdown _ shn => upTo 3 shn
  | .commandFetch _ qid cid opcode cdw10 => upTo 16384 qid && id16 cid && upTo 255 opcode && word32 cdw10
  | .completionPost _ cqid => upTo 16384 cqid
  | .msixVectorUnmask _ v => upTo 2047 v
  | .createIoSubmissionQueue h qid size _ prio cqid => adminCommand h && id16 qid && id16 size && upTo 3 prio && id16 cqid
  | .createIoCompletionQueue h qid size _ _ iv => adminCommand h && id16 qid && id16 size && id16 iv
  | .deleteIoSubmissionQueue h qid => adminCommand h && id16 qid
  | .deleteIoCompletionQueue h qid => adminCommand h && id16 qid
  | .getLogPage h nsid lid lsp _ _ _ => adminCommand h && upTo 255 lid && upTo 127 lsp && word32 nsid
  | .identify h cns nsid cntid csi => adminCommand h && upTo 255 cns && id16 cntid && upTo 255 csi && word32 nsid
  | .abort h sq cid => adminCommand h && id16 sq && id16 cid
  | .setFeaturesArbitration h _ _ _ _ _ => adminCommand h
  | .setFeaturesPowerManagement h _ _ _ => adminCommand h
  | .setFeaturesTemperatureThreshold h _ _ _ _ => adminCommand h
  | .setFeaturesNumberOfQueues h _ _ _ => adminCommand h
  | .setFeaturesInterruptCoalescing h _ _ _ => adminCommand h
  | .setFeaturesInterruptVectorConfig h _ _ _ => adminCommand h
  | .setFeaturesAsyncEventConfig h _ _ => adminCommand h
  | .setFeaturesTimestamp h _ _ => adminCommand h
  | .setFeaturesThermalGraceTime h _ _ => adminCommand h
  | .setFeaturesInterleaveGrain h _ _ => adminCommand h
  | .setFeaturesScrubPeriod h _ _ => adminCommand h
  | .getFeatures h fid sel _ => adminCommand h && upTo 255 fid && upTo 7 sel
  | .asynchronousEventRequest h => adminCommand h
  | .namespaceCreate h _ => adminCommand h
  | .namespaceDelete h nsid => adminCommand h && word32 nsid
  | .namespaceDeleteEffect nsid => word32 nsid
  | .namespaceAttach h nsid _ => adminCommand h && word32 nsid
  | .namespaceDetach h nsid _ => adminCommand h && word32 nsid
  | .firmwareImageDownload h _ _ => adminCommand h
  | .firmwareCommit h action slot => adminCommand h && commitAction action && upTo 7 slot
  | .firmwareCommitActivate h slot => adminCommand h && upTo 7 slot
  | .directiveSend h nsid dtype doper dspec _ => adminCommand h && upTo 255 dtype && upTo 255 doper && id16 dspec && word32 nsid
  | .directiveReceive h nsid dtype doper dspec nsr =>
    adminCommand h && upTo 255 dtype && upTo 255 doper && id16 dspec && id16 nsr && word32 nsid
  | .formatNvm h nsid lbaf ses _ => adminCommand h && upTo 15 lbaf && upTo 7 ses && word32 nsid
  | .sanitizeBlockErase h => adminCommand h
  | .sanitizeCryptoErase h => adminCommand h
  | .flush h nsid => ioCommand h && word32 nsid
  | .write h nsid slba nlb dtype dspec _ => ioCommand h && id16 nlb && upTo 255 dtype && id16 dspec && word32 nsid && lba64 slba
  | .writeCommit h _ => ioCommand h
  | .writeZeroes h nsid slba nlb _ => ioCommand h && id16 nlb && word32 nsid && lba64 slba
  | .datasetManagement h nsid _ ranges => ioCommand h && rangesOk ranges && word32 nsid
  | .read h nsid slba nlb => ioCommand h && id16 nlb && word32 nsid && lba64 slba
  | .verify h nsid slba nlb => ioCommand h && id16 nlb && word32 nsid && lba64 slba
  | .holdUpTest h nsid => adminCommand h && word32 nsid
  | .streamReserve h nsid _ _ => adminCommand h && word32 nsid
  | .streamRelease h nsid _ => adminCommand h && word32 nsid
  | .chainLinkForm nsid _ => word32 nsid
  | .monumentTimerExpiry nsid => word32 nsid
  | .monumentWrite nsid _ => word32 nsid
  | .rangeDigest h nsid _ => ioCommand h && word32 nsid
  | .extentSeal h nsid _ _ => adminCommand h && word32 nsid
  | .sealPointFix nsid => word32 nsid
  | .sealManifestComplete nsid => word32 nsid
  | .extentUnseal h nsid _ _ _ => adminCommand h && word32 nsid
  | .mapPageLoadComplete nsid _ _ => word32 nsid
  | .mapPageWriteback nsid _ => word32 nsid
  | .mapPageReconstruct nsid _ => word32 nsid
  | .unitRelocate nsid _ dstDie _ _ _ _ => word32 nsid && upTo 1023 dstDie
  | .dieRetire die cause => upTo 1023 die && upTo 7 cause
  | .redundancyRebuildComplete die => upTo 1023 die
  | .pageReadComplete die _ nsid _ _ _ _ _ => word32 nsid && upTo 1023 die
  | .readRebuildTimeout die nsid _ _ _ => word32 nsid && upTo 1023 die
  | .programFail die _ _ => upTo 1023 die
  | .eraseFail die _ => upTo 1023 die
  | .dieBusyTimeout die => upTo 1023 die
  | .nandTempSample die _ => upTo 1023 die
  | .sramSweep site _ _ _ _ _ => siteOk site
  | .dramChannelFail _ cause => upTo 4 cause
  | .taskMigrateLoad task => upTo 16383 task
  | .taskMigratePenumbra task => upTo 16383 task
  | .taskRelease task => upTo 16383 task
  | .releaseComplete task => upTo 16383 task
  | .programLoad h _ _ => adminCommand h
  | .programUnload h _ => adminCommand h
  | .invoke h _ _ => ioCommand h
  | .dmaComplete task _ _ => upTo 16383 task
  | .compressionComplete task _ _ => upTo 16383 task
  | .filterScanComplete task _ _ => upTo 16383 task
  | .engineStatRead _ _ port => statPort port
  | .scan h nsid _ _ => ioCommand h && word32 nsid
  | .scanUnitFilter h => ioCommand h
  | .filterSetLoad unit set => upTo 39 unit && upTo 1023 set
  | .resultRead h _ => ioCommand h
  | .keyTableCreate h _ data => adminCommand h && configureOp 1 data
  | .keyTableDestroy h _ data => adminCommand h && configureOp 2 data
  | .keyTableClear h _ data => adminCommand h && configureOp 3 data
  | .keyLookup h _ _ _ => ioCommand h
  | .keyInsert h _ _ => ioCommand h
  | .keyDelete h _ _ => ioCommand h
  | .patternSetLoad h d _ => adminCommand h && removeBit false d
  | .patternSetRemove h d => adminCommand h && removeBit true d
  | .derivedKeyDurable slot => upTo 255 slot
  | .digestWhole h d _ => ioCommand h && digestWholePhase d
  | .digestStart h d _ => ioCommand h && digestPhase 1 d
  | .digestContinue h d _ => ioCommand h && digestPhase 2 d
  | .digestFinal h d _ => ioCommand h && digestPhase 3 d
  | .digestAbandon h d => ioCommand h && digestPhase 4 d
  | .digestEraseKeySlot h d => ioCommand h && digestPhase 5 d
  | .keyCopyErase slot => upTo 255 slot
  | .sliceCreate h _ _ => adminCommand h
  | .sliceDestroy h _ => adminCommand h
  | .sliceAdminRelay h _ _ => adminCommand h
  | .sliceAdminRelayRead h _ _ => adminCommand h
  | .eclipseBegin _ cause => upTo 4 cause
  | .fieldBookFlush cause => upTo 5 cause
  | .fieldBookClear h nsid _ => adminCommand h && word32 nsid
  | .presenceArm h nsid d => adminCommand h && presenceAction 0 d && word32 nsid
  | .identityKeyReset h nsid d => adminCommand h && presenceAction 1 d && word32 nsid
  | .debugPortEnable h nsid d => adminCommand h && presenceAction 2 d && word32 nsid
  | .presenceClose h nsid d => adminCommand h && presenceAction 3 d && word32 nsid
  | .registerWrite _ _ _ size _ => accessSize size
  | .coalescingTimeExpiry _ v => upTo 2047 v
  | .arbiterGrant .. | .clockSourceSwitch .. | .crystalReturn .. | .datumBroadcast .. | .dtNowLoRead ..
  | .dtAlarmCtlWrite .. | .paceWindowEnd .. | .vcoreStep .. | .vcoreReadbackCheck .. | .baselineComputationDone ..
  | .coreCellPowerOff .. | .domainPowerGood .. | .portReset .. | .swDatumLoRead .. | .ccEnable .. | .ccDisable ..
  | .asyncEventPost .. | .activationStep .. | .destageStripeProgram .. | .nandProgramComplete ..
  | .holdupMeasurementStart .. | .holdupV1Sample .. | .holdupV2Sample .. | .holdupSettleTimeout ..
  | .bankRecharged .. | .vbankSample .. | .vinWarnFall .. | .vinWarnRise .. | .powerFailWarning ..
  | .reserveWindowClose .. | .dumpComplete .. | .vinRecovery .. | .vinResetReached .. | .supervisorRestart ..
  | .journalRecordDurable .. | .checkpointStart .. | .reclaimSourceSelect .. | .sourceErase .. | .wearLevelMove ..
  | .mediaScrubRead .. | .flashChannelFail .. | .channelAdopt .. | .channelReturn .. | .dramAccessIssue ..
  | .rowDisturbThreshold .. | .refreshWindowStart .. | .dramRefresh .. | .mr4Poll .. | .zqCalibration ..
  | .dqsOscillatorRead .. | .dqsRetrain .. | .setUFill .. | .traverseVisit .. | .revisitRewrite ..
  | .setSReformComplete .. | .opAdd .. | .opSub .. | .opAnd .. | .opOr .. | .opXor .. | .opAndn .. | .opShl ..
  | .opShr .. | .opSar .. | .opRor .. | .opMul .. | .opMulh .. | .opMulhu .. | .opDiv .. | .opDivu .. | .opRem ..
  | .opRemu .. | .opMin .. | .opMax .. | .opMinu .. | .opMaxu .. | .opClz .. | .opPopc .. | .opBfxReg ..
  | .opBfxuReg .. | .opBfiReg .. | .opPermr .. | .opBfx .. | .opBfxu .. | .opBfi .. | .opPerm .. | .opAddi ..
  | .opAndi .. | .opOri .. | .opXori .. | .opShli .. | .opShri .. | .opSari .. | .opSli .. | .opCmp .. | .opCmpi ..
  | .opPand .. | .opPor .. | .opPxor .. | .opPmov .. | .opLdb .. | .opLdbu .. | .opLdh .. | .opLdhu .. | .opLdw ..
  | .opStb .. | .opSth .. | .opStw .. | .storePerform .. | .opIn .. | .opOut .. | .opMfs .. | .opMts .. | .opPush ..
  | .opPop .. | .opBr .. | .opCall .. | .opJi .. | .opCalli .. | .opRet .. | .opWait .. | .opWaitAll .. | .opSigev ..
  | .opYield .. | .opFence .. | .opHalt .. | .opTret .. | .opTrap .. | .stepBudgetExhausted .. | .tkClrfWrite ..
  | .spGoRead .. | .taskDispatch .. | .taskPreempt .. | .plCreateRead .. | .plDestroyWrite .. | .plAllocRead ..
  | .plFreeWrite .. | .plShareWrite .. | .plQueryWrite .. | .svcResult .. | .svcOutbuf .. | .svcLbaout ..
  | .dmaGoRead .. | .cpGoRead .. | .fsGoRead .. | .moverShift .. | .holeRebalance .. | .bankShadowSweep ..
  | .kaLookRead .. | .kaInsertRead .. | .kaDeleteRead .. | .dgOpen .. | .dgFinal .. | .digestFinalReady ..
  | .dgClose .. | .dgSave .. | .dgRestore .. | .dgEraseKey .. | .dgDataWrite .. | .digestBlockAbsorbed ..
  | .dgResultRead .. | .digestSessionEvict .. | .ksGenerate .. | .ksErase .. | .sliceDramFillComplete ..
  | .pasidEnableChange .. | .stMap .. | .stUnmap .. | .stUnmapSlice .. | .sensorSample .. | .thermalGraceExpiry ..
  | .enforcementLevelRise .. | .enforcementLevelFall .. | .t2BlockStopTimeout .. | .sensorSelfCheck ..
  | .vinConversion .. | .vinOvervoltage .. | .powerStateExit .. | .queueManagerMismatch ..
  | .supervisorVoteMismatch .. | .penumbraEnd .. | .selfTest .. | .relight .. | .regionLit .. | .svEclipse ..
  | .svRelight .. | .svRecord .. | .svRetire .. | .trDataWrite .. | .pmbAlert .. | .operatingSecond ..
  | .presenceWindowOpen .. | .armingPeriodExpiry .. | .presenceWindowExpiry .. | .serviceNChange ..
  | .sealLoopCheck .. | .vaonPowerGood .. | .vaonLoss .. | .startupBegin .. | .vcorePgTimeout .. | .nvmeMiRequest ..
  | .linkUp .. | .eraseComplete .. | .fieldBookFlushComplete .. | .supervisorResyncComplete ..
  | .queueManagerTestComplete .. | .recoveryComparatorChange .. => true

end Sys2Proof
end

