-- ==== Sys2Proof/Tests/Slice0.lean ====
section
/-! SUPPORT. The model's own tests: ill-formed commands that WellFormed refuses, single steps on small states, and, for
each statement with hypotheses, concrete states and operands that meet them. -/

namespace Sys2Proof.Tests

open Sys2Proof Sys2Proof.Machine

/-! ### Small states -/

/-- A command of the admin queue of port PE0. -/
def adm : Sub := { port := 0, sq := 0, cid := 1 }

/-- A command of I/O queue 1 of port PE0. -/
def io : Sub := { port := 0, sq := 1, cid := 1 }

/-- A port with its controller ready and one pair of I/O queues. -/
def port0 : HostPort :=
  { present := true, linkUp := true, en := true, rdy := true,
    sqs := [(0, { size := 16 }), (1, { size := 8, cqid := 1 })],
    cqs := [(0, { size := 16 }), (1, { size := 8 })] }

/-- A namespace of 64 blocks of 512 bytes, attached to controller 1. -/
def ns0 : Namespace :=
  { nsze := 64, ncap := 64, lbaf := 0, evid := false, xts := false, par2 := false, slice := 0, anagrp := 1, nguid := [],
    ctrls := [1] }

/-- A started device with one port and one namespace. -/
def st0 : State :=
  { ports := [(0, port0)], namespaces := [(1, ns0)], startup := { done := true, input := none }, datum := 1000 }

/-- A firmware task on core 0, at pc 0. -/
def fwTask : Task :=
  { gen := 0, phase := .running, slice := 0, slot := 0xFFFF, fw := true, regs := Vector.replicate 32 5, preds := 1,
    pc := 0, ds := 0, dlim := 0, rstack := [], steps := 9, exhausted := false, ports := {}, tickets := [],
    scratch := [], priv := [], flow := none, budget := 10, initMask := 0, args := [], mask := 0, maskAll := false,
    waitReg := none, flags := 0, delivered := 0, deadline := none, region := 0, lastCore := none, creatorBlock := 0,
    readySince := 0, runSince := 0, restarts := 0, fences := 0, sigevs := 0, sigevLog := [], spawns := 0,
    spawnLog := [], holding := [], effects := [], endStatus := 0, inv := none, root := false, storeError := none,
    keyOps := 0, ctx := none, newKeys := [] }

/-- A program's task: not privileged. -/
def prTask : Task := { fwTask with fw := false }

/-- A device on whose core 0 a task runs. -/
def onCore (k : Task) : State := { st0 with tasks := [(0, k)], cores := [(0, { run := some 0, fw := k.fw })], domains := [(0, .on)] }

/-- What core 0 shows there. -/
def viewOf (k : Task) : View := { c := 0, t := 0, task := k, core := { run := some 0, fw := k.fw } }

/-! ### Witnesses: states and operands that meet the hypotheses of the statements -/

theorem witness_EmptyQueueTicks : st0.pending = [] ∧ st0.vaon = true := by decide

theorem witness_MinimumVersionNeverFalls : ∃ t, step st0 = .next t ∧ t.datum = 1001 := ⟨_, rfl, rfl⟩

/-- The log full, its newest entry numbered as `newest`. -/
def fullLog : State :=
  { st0 with faults := { ring := List.replicate 256 { seq := 300 }, newest := 300 } }

theorem witness_EveryStepKeepsLogsBounded : LogsBounded fullLog ∧ ∃ t, step fullLog = .next t :=
  ⟨⟨by decide, ⟨Nat.le_of_eq List.length_replicate, fun e h => by rw [(List.mem_replicate.mp h).2]; decide⟩,
    fun e h => by
      have h : e ∈ [(0, ({}, {})), (2, ({}, {}))] := h
      rcases List.mem_cons.mp h with rfl | h
      · exact ⟨Nat.zero_le _, fun _ h => nomatch h⟩
      · rw [List.mem_singleton.mp h]; exact ⟨Nat.zero_le _, fun _ h => nomatch h⟩,
    by intro im h; cases h⟩, _, rfl⟩

theorem witness_FaultEntriesAreRecorded :
    Tab.get? st0.ports 0 = some port0 ∧ port0.present = true ∧ ({ event := 9, outcome := 1 } : LogEntry).event ≠ 0 ∧
    ({} : LogEntry).event = 0 ∧ st0.book.again = none := by decide

/-- A task whose armed alarm is due at this very datum. -/
def alarmTask : Task := { fwTask with ports := { arm := true, alarmLo := 1000, alarmFlag := 31 } }

theorem witness_ClockCopiesAndAlarms :
    let s : State := { st0 with datum := 65536 }
    st0.oscillator = false ∧ ({ st0 with oscillator := true } : State).oscillator = true ∧ st0.datum % 65536 ≠ 0 ∧
    s.datum % 65536 = 0 ∧ (∀ e ∈ [(0, 65536), (7, 65536)], e.2 = s.datum) ∧
    [(0, 65536), (7, 999), (8, 65536)] = [(0, 65536)] ++ (7, 999) :: [(8, 65536)] ∧
    (∀ c ∈ [(0, 65536)] ++ [(8, 65536)], c.2 = s.datum) ∧ 7 < 8 ∧ 999 ≠ s.datum ∧
    taskOf (onCore alarmTask) 0 = some alarmTask ∧ alarmTask.ports.arm = true ∧
    alarmTask.ports.alarmHi.toNat * 2 ^ 32 + alarmTask.ports.alarmLo.toNat ≤ (onCore alarmTask).datum := by
  repeat' apply And.intro
  all_goals first | rfl | decide

/-- A request of DRAM channel 0 at the chip's arbiter. -/
def arbReq (w : Work) : ArbReq :=
  { work := w, arrival := 0, unit := { kind := 9, index := 0 }, slice := 0, resource := .dramRing, bytes := 512 }

theorem witness_ArbitersAndHandshakes :
    let s : State := { st0 with datum := 2000, base := { hbGc := 1 } }
    let may := fun q : ArbReq => arbServes .chip q.resource = true ∧ arbMember .chip q.unit = true ∧
      grantable s q.unit = true ∧ q.arrival ≤ s.datum ∧ 0 < q.bytes ∧ q.bytes ≤ 512
    (arbOf s .chip).granted = none ∧ arbPowered s .chip = true ∧ may (arbReq (.refresh 830)) ∧
    (∀ b, (arbReq (.refresh 830)).work ≠ .budgeted b) ∧
    deadlineOf s (arbReq (.refresh 830)) = some 2000 ∧ deadlineOf s (arbReq (.refresh 829)) = some 1999 ∧
    1999 < s.datum ∧ (arbReq (.budgeted .gc)).work = .budgeted .gc ∧ budgetRate s .gc ≠ 0 ∧
    s.datum ≤ 0 + (512 * 100 + 1 - 1) / 1 ∧ deadlineOf s (arbReq .bestEffort) = none ∧
    deadlineOf s (arbReq (.refresh 831)) = some 2001 ∧ 2001 < s.datum + 2 ^ 31 := by
  repeat' apply And.intro
  all_goals first | decide | (intro b h; cases h)

/-- A transfer is granted at the front end. -/
def arbGranted : State := { st0 with arbiters := [(41, { granted := some (arbReq .bestEffort) })] }

theorem witness_ArbitersAndHandshakes_transfer :
    let s := arbGranted
    let site : Site := { kind := 11, index := 16 }
    let dark : State := { st0 with domains := [(46, .off)] }
    let off : Site := { kind := 2, index := 0 }
    (arbOf s .frontEnd).granted = some (arbReq .bestEffort) ∧ sitePowered s site = true ∧
    firstViolation { data := [0x003#9], again := [0x003#9] } = none ∧ badLane [0x003#9] = none ∧
    badLane [0x003#9, 0x100#9] = some 1 ∧ badLane [0x003#9, 0x000#9] = none ∧
    firstViolation { wires := [(5, [0#2, 3#2])] } = some 5 ∧
    (arbOf dark (.region 0)).granted = none ∧ arbPowered dark (.region 0) = false ∧ sitePowered dark off = false ∧
    levelBound .cell < st0.datum - 799 ∧ st0.datum - 800 ≤ levelBound .cell ∧
    ({ kind := 3, index := 5 } : Site) = { kind := 3, index := 5 } := by decide

/-- The core supply and the baseline in use; a computation runs. -/
def powered : State :=
  { st0 with
    vcore := { vset := 760, enabled := true, checks := [(1000, false), (1200, true)] }
    datum := 10000
    base := { running := true }
    regions := [(0, { powered := true })]
    domains := [(33, .poweringUp 0 false)] }

theorem witness_PaceSupplyAndBaseline :
    let s := powered
    let u : State := { powered with powerQueue := [34, 36] }
    (region s 0).state ≠ .umbra ∧ (region s 0).state ≠ .retired ∧ domainOn s 0 46 = true ∧
    (region s 0).windowAt + 10000 ≤ s.datum ∧ st0.datum < (region st0 0).windowAt + 10000 ∧
    (∃ cycles, 643 ≤ cycles * 1000 / max 1 (Config.nominalCycles 0)) ∧
    vcoreMayStep s = true ∧ vcoreNext s ≠ s.vcore.vset ∧
    s.vcore.checks = (1000, false) :: [(1200, true)] ∧ 1000 ≤ s.datum ∧ 775 ≤ s.vcore.vset + 15 ∧
    s.vcore.vset ≤ 745 + 15 ∧ s.vcore.vset + 15 < 776 ∧
    ({ s.vcore with checks := [(1200, true)] } : Vcore).checks = (1200, true) :: [] ∧
    s.base.running = true ∧ s.base.held = [] ∧ s.supply.held = [] ∧ s.resvs = [] ∧
    (coreOf s 0).run = none ∧ (coreOf s 0).idleSince + 10000 ≤ s.datum ∧
    domainOn s (regionOf 0) 0 = true ∧ openGrant s { kind := 0, index := 0 } = false ∧ s.powerQueue = [] ∧
    domainState s 0 33 = .poweringUp 0 false ∧ u.powerQueue = 34 :: [36] ∧
    poweringCount { s with domains := (List.range 7).map fun i => (i + 1, DomainState.poweringUp 0 false) } = 7 := by
  refine ⟨by decide, by decide, by decide, by decide, by decide, ⟨max 1 (Config.nominalCycles 0), ?_⟩, ?_⟩
  · rw [Nat.mul_div_cancel_left _ (Nat.lt_of_lt_of_le Nat.zero_lt_one (Nat.le_max_left ..))]; decide
  · decide

/-- Port PE0 with the given change, on a started device. -/
def withPort (q : HostPort) : State := { st0 with ports := [(0, q)] }

theorem witness_ControllersAndDoorbells_registers :
    let s := withPort { port0 with en := false, rdy := false }
    let q := portOf s 0
    q.present = true ∧ (s.invs = [] ∧ s.scans = [] ∧ s.waitingInvokes = [] ∧ s.sessions = [] ∧ s.turns = [] ∧ s.supply.ps = 0 ∧
      ∀ e ∈ s.slices, e.2.state ≠ .destroying) ∧
    (portOf s 1).present = false ∧ q.en = false ∧ q.rdy = false ∧ q.cfs = false ∧ s.startup.done = true ∧
    s.startup.stopped = false ∧ (0x460A00#32).toNat / 16 % 8 = 0 ∧ (0x460A00#32).toNat / 128 % 16 ≤ 4 ∧
    (0x460A00#32).toNat / 2048 % 8 ≤ 1 ∧ (0x460A00#32).toNat / 65536 % 16 = 6 ∧
    (0x460A00#32).toNat / 1048576 % 16 = 4 ∧ (portOf st0 0).en = true ∧ (2 = 1 ∨ 2 = 2) ∧ 16384 < 16385 ∧
    2047 < 2048 ∧ dirtyPages s = [] := by decide

/-- A submission queue of 8 entries with one left to fetch, and a completion queue with one posted entry and one
decided. -/
def bellPort : HostPort :=
  { port0 with
    sqs := [(0, { size := 16 }), (1, { size := 8, cqid := 1, tail := 7, bells := [(1, 900)] })]
    cqs := [(0, { size := 16 }), (1, { size := 8, ien := false, head := 7, entries := [{ h := io }] })]
    aers := [adm], events := [{ typ := 1, info := 0, log := 2 }], unread := [{ typ := 7, info := 3, log := 0xC4 }]
    vectors := [(2047, { masked := false, held := 1, heldSince := 0 })] }

theorem witness_ControllersAndDoorbells_doorbells :
    let s : State := { withPort bellPort with decided := [{ h := io }] }
    let q := portOf s 0
    ∃ x y, Tab.get? q.sqs 1 = some x ∧ x.deleting = none ∧ 0 < x.size ∧ x.tail < x.size ∧ 0 ≠ x.tail ∧ x.size ≤ 8 ∧
      Tab.get? q.sqs 2 = none ∧ Tab.get? q.cqs 1 = some y ∧ 0 < y.size ∧ (0 + y.size - y.head) % y.size ≤ y.entries.length ∧
      x.bells = [(1, 900)] ∧ q.sqs.filter (fetchable s q) = [(1, x)] ∧ (1 : Nat) ≠ 0 ∧ q.ams = 0 ∧
      (nextFetch s q).map (fun e => (e.1, e.2.1)) = some (1, 4) ∧ entryRefusal 1 2 0 = none ∧ entryRefusal 1 0x77 0 = some { sct := 0, sc := 1 } ∧
      ioOpcodes.contains 0x77 = false ∧ q.rdy = true ∧ s.thermal.t3 = false ∧ s.supply.held = [] ∧ s.turns = [] ∧ y.slice = 0 ∧ y.entries.length + 1 < y.size ∧ y.ien = false ∧
      s.decided = [{ h := io }] ∧ io.port = 0 ∧ io.sq = 1 ∧ x.cqid = 1 ∧ (∀ w ∈ s.writes, w.h ≠ io) ∧
      (∀ z ∈ q.sqs, z.2.deleting = none) ∧ (∀ e ∈ s.slices, e.2.state ≠ .destroying) ∧
      (0 < (Tab.getD q.vectors 2047 {}).held ∧ (Tab.getD q.vectors 2047 {}).heldSince + s.features.coalTime * 10000 ≤ s.datum ∧ (Tab.getD q.vectors 2047 {}).masked = false) ∧ 2047 < 2048 ∧
      q.aers.length < 16 ∧ 16 ≤ ({ q with aers := List.replicate 16 adm } : HostPort).aers.length ∧
      q.aers = [adm] ∧ q.events = [{ typ := 1, info := 0, log := 2 }] ∧ ∀ u ∈ q.unread, u.typ ≠ 1 := by
  refine ⟨{ size := 8, cqid := 1, tail := 7, bells := [(1, 900)] },
    { size := 8, ien := false, head := 7, entries := [{ h := io }] }, ?_⟩
  repeat' apply And.intro
  all_goals decide

/-- Commands held on queue 1. -/
def holding (l : List HeldCmd) : State := { withPort bellPort with held := l }

/-- As many commands held as the device can hold. -/
theorem witness_ControllersAndDoorbells_full : ∃ l x, Tab.get? (portOf (holding l) 0).sqs 1 = some x ∧
    65536 ≤ (holding l).held.length := by
  generalize hn : (65536 : Nat) = n
  exact ⟨List.replicate n { h := io, bell := 0, urgent := false }, _, rfl, Nat.le_of_eq List.length_replicate.symm⟩

theorem witness_ControllersAndDoorbells_full_queue :
    let y : ComplQueue := { size := 2, entries := [{ h := io }] }
    let s := withPort { port0 with cqs := [(1, y)] }
    Tab.get? (portOf s 0).cqs 1 = some y ∧ y.size ≤ y.entries.length + 1 ∧ s.turns = [] ∧
      ∀ e ∈ s.slices, e.2.state ≠ .destroying := by decide

theorem witness_QueueCommands :
    let q := portOf st0 0
    ∃ x y, qidOk st0 0 0 16384 false = true ∧ qidOk st0 0 0 16384 true = true ∧ Tab.get? q.cqs 16384 = none ∧
      Tab.get? q.sqs 16384 = none ∧ 0 < 65535 ∧ 65535 ≤ 65535 ∧ vectorOk st0 0 0 2047 = true ∧ 1 ≠ 0 ∧
      Tab.get? q.cqs 1 = some y ∧ y.slice = 0 ∧ Tab.get? q.cqs 2 = none ∧
      (∀ z ∈ [(0, ({ size := 16 } : SubQueue))], z.2.cqid ≠ 1) ∧ (1, x) ∈ q.sqs ∧ x.cqid = 1 ∧
      Tab.get? q.sqs 1 = some x ∧ x.slice = 0 ∧ x.deleting = none ∧ x.bells = [] ∧ (∀ z ∈ q.sqs, z.2.deleting = none) ∧
      (∀ c ∈ st0.held, c.h.port = 0 → c.h.sq ≠ 1) ∧ (∀ c ∈ st0.decided, c.h.port = 0 → c.h.sq ≠ 1) ∧ st0.writes = [] ∧
      st0.invs = [] ∧ st0.scans = [] ∧ st0.waitingInvokes = [] ∧ q.aborts.length < 256 := by
  refine ⟨{ size := 8, cqid := 1 }, { size := 8 }, ?_⟩
  repeat' apply And.intro
  all_goals decide

theorem witness_QueueCommands_full :
    256 ≤ (portOf (withPort { port0 with aborts := List.replicate 256 adm }) 0).aborts.length :=
  Nat.le_of_eq List.length_replicate.symm

theorem witness_QueueCommands_aborted :
    let s : State := { st0 with held := [{ h := io, bell := 0, urgent := false }] }
    ∃ c ∈ s.held, c.h.port = 0 ∧ c.h.sq = 1 ∧ inProgress s c.h = false ∧ ∀ d ∈ s.decided, d.h ≠ c.h :=
  ⟨{ h := io, bell := 0, urgent := false }, List.mem_cons_self, by
    repeat' apply And.intro
    all_goals first | rfl | decide⟩

theorem witness_FeatureCommands :
    7 < 8 ∧ 255 < 256 ∧ (4 < 5 ∨ (0 : Nat) ≠ 0) ∧ 4 ≤ 4 ∧ powered.base.running = true ∧ st0.base.running = false ∧
    st0.dump.active = false ∧ st0.dump.brownOut = false ∧ effectivePs (setReqPs 0 0 st0) = st0.supply.ps ∧
    8 ≤ 8 ∧ 1 ≤ 1 ∧ 200 ≤ 420 ∧ 420 ≤ 420 ∧ (8 < 8 ∨ 1 < 1 ∨ 199 < 200 ∨ 420 < 199) ∧ 65534 < 65535 ∧
    ioQueues (withPort { port0 with sqs := [(0, { size := 16 })], cqs := [(0, { size := 16 })] }) 0 0 = false ∧
    2047 < 2048 ∧ 2 ^ 48 - 1 < 2 ^ 48 ∧ featureKnown 0x03 = false := by decide

/-- A device with capacity and no namespace yet. -/
def roomy : State := { st0 with namespaces := [], media := { tnvmcap := 32768 } }

def nsWanted : NsParams := { nsze := 64, ncap := 64, flbas := 0, anagrp := 2, vendor := [1, 0, 0, 0, 0, 0, 0, 0] }

theorem witness_NamespacesComeAndGo_create :
    ∃ nsid, nsWanted.nsze ≠ 0 ∧ nsWanted.anagrp ≤ 2 ∧ nsWanted.flbas % 16 ≤ 1 ∧ nsWanted.nsze = nsWanted.ncap ∧
      roomy.media.readOnly = false ∧ vendorBit nsWanted 1 = false ∧ freeNsid roomy = some nsid ∧
      nsCharge (newNamespace 0 nsid nsWanted (fit 16 (Config.nguid roomy.nsMade))) ≤ capFree roomy 0 := by
  have h : ∀ i n, 0 < n → Tab.lowestFree ([] : Tab Namespace) i n = some i := by
    intro i n hn; cases n with
    | zero => cases hn
    | succ n => rfl
  refine ⟨freeNat roomy % 1024 + 1, by decide, by decide, by decide, by decide, by decide, by decide, ?_, by decide⟩
  show (Tab.lowestFree ([] : Tab Namespace) _ _).or _ = _
  rw [h _ _ (by omega)]; rfl

theorem witness_NamespacesComeAndGo :
    ({ nsWanted with nsze := 0 } : NsParams).nsze = 0 ∧ 1 < ({ nsWanted with flbas := 2 } : NsParams).flbas % 16 ∧
    ({ nsWanted with ncap := 65 } : NsParams).ncap ≠ 64 ∧ 1 ≠ 0xFFFFFFFF ∧ nsOf st0 1 = some ns0 ∧
    ns0.deleting = none ∧ ns0.sealing = [] ∧ (∀ m ∈ ns0.chain.pending, m.waiter = none) ∧ nsOf st0 2 = none ∧
    ns0.keySlot = none ∧ nsInUse st0 1 = false ∧ (∀ r ∈ st0.resvs, r.nsid ≠ 1) ∧
    (∀ e ∈ st0.namespaces, e.1 ≠ 1 → e.2.deleting ≠ some (some adm)) ∧ (∀ e ∈ st0.slices, e.2.state ≠ .destroying) ∧
    nsOf { st0 with namespaces := [(1, { ns0 with deleting := some (some adm) })] } 1 =
      some { ns0 with deleting := some (some adm) } ∧
    ctrlListOk st0 0 [1] = true ∧ (∀ c ∈ [1], ({ ns0 with ctrls := [] } : Namespace).ctrls.contains c = false) ∧
    (∀ c ∈ [1], ns0.ctrls.contains c = true) ∧ ctrlListOk st0 0 [2] = false := by decide

/-- A write past its checks: one block of zeros. -/
def oneWrite : WriteOp :=
  { h := io, slice := 0, nsid := 1, kind := .write, sid := 0,
    granules := [{ slba := 0, nlb := 1, data := zeros 512, dealloc := false }], checked := true }

/-- A seal on the first 8 blocks, and the namespace that holds it. -/
def seal0 : SealEntry :=
  { slba := 0, nlb := 8, label := [], datum := 0, mseq := 1, manifest := [], root := [], complete := true, headLseq := 0,
    head := [] }

def sealedNs : Namespace := { ns0 with seals := [seal0] }

/-- A delete that waits behind another command of its namespace. -/
theorem witness_NamespacesComeAndGo_turns :
    let del : NsTurn := { h := adm, slice := 0, cmd := .delete 1 }
    turnWaits st0 del = false ∧ turnWaits { st0 with turns := [del] } del = true ∧ st0.turns = [] := by decide

theorem witness_NamespacesComeAndGo_used : nsInUse { st0 with writes := [oneWrite] } 1 = true := by decide

/-- A reservation of stream 65535 of namespace 1. -/
def resv0 : Reservation :=
  { slice := 0, nsid := 1, sid := 65535, cls := 0, bw := 1, maxw := 1, burst := 1, lbound := 1, admitted := 0,
    bucket := 1, bucketAt := 0 }

theorem witness_FormatsSanitizesAndDirectives :
    let s : State := { st0 with namespaces := [(1, sealedNs)] }
    let fmt : NsTurn := { h := adm, slice := 0, cmd := .format 1 0 0 0 }
    let fmt2 : NsTurn := { h := adm, slice := 0, cmd := .format 2 0 0 0 }
    let san := fun act : Nat => ({ h := adm, slice := 0, cmd := .sanitize act } : NsTurn)
    let held : State := { s with turns := [fmt] }
    let opened : State := { s with presence := { s.presence with state := .opened } }
    turnWaits s fmt = false ∧ turnWaits held fmt = true ∧ nsScope st0 0 1 = some [1] ∧ formatAdds st0 0 [1] ≤ capFree st0 0 ∧
    anySealed st0 [1] = false ∧ turnWaits st0 fmt2 = false ∧ nsScope st0 0 2 = none ∧ capFree st0 0 < formatAdds st0 2 [1] ∧
    turnWaits st0 fmt = false ∧ nsScope s 0 1 = some [1] ∧ formatAdds s 0 [1] ≤ capFree s 0 ∧ anySealed s [1] = true ∧
    s.presence.state ≠ .opened ∧ opened.presence.state = .opened ∧ turnWaits held (san 2) = true ∧
    turnWaits held (san 4) = true ∧ turnWaits s (san 2) = false ∧ turnWaits s (san 4) = false ∧
    anySealed s (s.namespaces.map (·.1)) = true ∧ anySealed st0 (st0.namespaces.map (·.1)) = false ∧
    turnWaits st0 (san 2) = false ∧ turnWaits st0 (san 4) = false ∧ nsForIo st0 io 1 = some ns0 ∧
    (0x0101#32).toNat / 256 % 256 = 1 ∧ (0x0201#32).toNat / 256 % 256 ≠ 1 ∧ resvOf st0 1 65535 = none ∧
    (resvOf { st0 with resvs := [resv0] } 1 65535).isSome = true ∧ (1, 3) ∉ [(0, 1), (1, 1), (1, 2)] ∧
    (1, 4) ∉ [(0, 1), (1, 1), (1, 2), (1, 3)] ∧ ns0.streamsAlloc < 65536 ∧ ns0.streams.length < 65536 ∧
    nsForIo st0 io 2 = none := by
  repeat' apply And.intro
  all_goals decide

/-- A package part too short to be one, a valid slot 2, and a rolling activation of it at the given step. -/
def activating (step : Nat) (minV : Nat) : State :=
  { st0 with startup :=
      { st0.startup with minVersion := minV, slots := [(2, { valid := true, secver := 5 })]
                         activation := some { h := some adm, slot := 2, step := step, region := 0, startedAt := 0 } } }

/-- The same slot with no activation. -/
def bootable (minV : Nat) : State :=
  { st0 with startup := { st0.startup with minVersion := minV, slots := [(2, { valid := true, secver := 5 })] } }

theorem witness_FirmwareCommitsAndActivation :
    12288 % 4096 = 0 ∧ ((4097 % 4096 ≠ 0) ∨ [(0 : Byte)].length % 4096 ≠ 0 ∨ [(0 : Byte)] = []) ∧
    (activating 0 0).startup.activation = some { h := some adm, slot := 2, step := 0, region := 0, startedAt := 0 } ∧
    3 < 4 ∧ st0.startup.activation = none ∧ 4 ≠ 2 ∧ 4 ≠ 3 ∧ (3 = 2 ∨ 3 = 3) ∧
    packageOk (st0.startup.download.readBytes 0 st0.startup.downloadLen) = false ∧
    st0.startup.minVersion ≤ (slotOf (st0.startup.download.readBytes 0 st0.startup.downloadLen)).secver ∧
    (fwSlot st0 2).valid = false ∧ (fwSlot (bootable 5) 2).valid = true ∧
    (bootable 5).startup.minVersion ≤ (fwSlot (bootable 5) 2).secver ∧
    (fwSlot (bootable 6) 2).secver < (bootable 6).startup.minVersion ∧ (bootable 6).presence.state ≠ .opened ∧
    (bootable 5).startup.downloadLen = 0 ∧ (∀ r ∈ (bootable 5).regions, r.2.state ≠ .retired) ∧
    2 ≠ (bootable 5).startup.active ∧ (fwSlot (bootable 5) 2).compatMin ≤ (fwSlot (bootable 5) 1).build := by decide

/-- SHA-384 of no bytes. -/
def sha384Empty : List Byte :=
  [0x38, 0xb0, 0x60, 0xa7, 0x51, 0xac, 0x96, 0x38, 0x4c, 0xd9, 0x32, 0x7e, 0xb1, 0xb1, 0xe3, 0x6a, 0x21, 0xfd,
   0xb7, 0x11, 0x14, 0xbe, 0x07, 0x43, 0x4c, 0x0c, 0xc7, 0xbf, 0x63, 0xf6, 0xe1, 0xda, 0x27, 0x4e, 0xde, 0xbf,
   0xe7, 0x6f, 0x65, 0xfb, 0xd5, 0x1a, 0xd2, 0xf1, 0x48, 0x98, 0xb9, 0x5b]

/-- A package of 512 bytes, version 5, whose three sections are empty. -/
def package : List Byte :=
  let sec := toLe 4 512 ++ zeros 12 ++ sha384Empty
  fit 512 (toLe 4 0x57464E59 ++ toLe 2 1 ++ toLe 2 1 ++ toLe 4 512 ++ List.replicate 8 0x41 ++ toLe 4 7 ++ [5] ++ zeros 39 ++
    sec ++ sec ++ sec)

/-- That package downloaded. -/
def downloaded : State :=
  { st0 with startup := { st0.startup with minVersion := 5, download := Memory.writeBytes [] 0 package, downloadLen := 512 } }

/-- Every test of R545 but the signature holds of it, so that it is valid exactly when its signature, a free value, verifies. -/
theorem witness_FirmwareCommitsAndActivation_package :
    let b := downloaded.startup.download.readBytes 0 downloaded.startup.downloadLen
    packageOk b = Config.firmwareSigOk (digest 1 (b.take 256)) (slice b 256 96) ∧ downloaded.startup.activation = none ∧
      downloaded.startup.minVersion ≤ (slotOf b).secver := by
  have e : downloaded.startup.download.readBytes 0 downloaded.startup.downloadLen = package := by
    have h : ∀ n, package.length = n → (Memory.writeBytes [] 0 package).readBytes 0 n = package := by
      intro n h; subst h; exact Memory.readBytes_writeBytes package [] 0
    dsimp only [downloaded]; exact h 512 (by decide +kernel)
  refine ⟨?_, rfl, by rw [e]; decide +kernel⟩
  simp only [e, packageOk]
  have h : (decide (field package 0 4 = 0x57464E59 ∧ field package 4 2 = 1 ∧ field package 6 2 < 2)
    && decide (512 ≤ pkgTotal package ∧ pkgTotal package ≤ (norArea (.slot 2)).2 ∧ pkgTotal package ≤ package.length)
    && (slice package 12 8).all (fun c => decide (0x20 ≤ c.toNat ∧ c.toNat < 0x7F))
    && decide (field package 24 1 < 128) && zeroAt package 25 3 && zeroAt package 32 32 && zeroAt package 352 160
    && decide (field package 68 4 ≤ 1048576) && (List.range 3).all (sectionOk package)) = true := by decide +kernel
  rw [h, Bool.true_and]

theorem witness_FirmwareCommitsAndActivation_image : ∃ data : List Byte,
    data.length % 4096 = 0 ∧ data ≠ [] ∧ 16773120 + data.length ≤ 16777216 := by
  refine ⟨List.replicate 4096 0, ?_, ?_, ?_⟩
  · rw [List.length_replicate]
  · exact List.cons_ne_nil _ _
  · exact Nat.le_of_eq (by rw [List.length_replicate])

theorem witness_FirmwareCommitsAndActivation_steps :
    let dead : State := { activating 1 0 with regions := [(7, { state := .retired })] }
    let dim : State := { activating 0 0 with regions := [(7, { state := .penumbra })] }
    let late : State := { activating 3 0 with
      startup := { (activating 3 0).startup with activationRegions := List.range 8 } }
    ((7, ({ state := .retired } : Region)) ∈ dead.regions ∧ 0 < 1 ∧
      dead.startup.activation = some { h := some adm, slot := 2, step := 1, region := 0, startedAt := 0 }) ∧
    (∀ r ∈ (activating 0 0).regions, r.2.state ≠ .retired) ∧ litRegions (activating 0 0) = List.range 8 ∧
    anyStopped (activating 0 0) = false ∧ (∀ r ∈ dim.regions, r.2.state ≠ .retired) ∧ litRegions dim ≠ List.range 8 ∧
    (let s : State := { activating 2 0 with regions := [(7, { state := .penumbra })] }
     nextRegion s = some 0 ∧ mayEclipse s 0 = false ∧ ∀ r ∈ s.regions, r.2.state ≠ .retired) ∧
    nextRegion late = none ∧ (∀ r ∈ late.regions, r.2.state ≠ .retired) := by decide

theorem witness_LogsIdentifyAndManagement :
    4 % 4 = 0 ∧ 16777216 ≤ 16777216 ∧ (∃ b, logContent st0 0 0 0 0xC5 0 = .ok b) ∧ 0xC0 ≤ 0xC5 ∧
    logContent st0 0 0 0 0x04 0 = .error (sCmd 0x09) ∧ (2 % 4 ≠ 0 ∨ 0 % 4 ≠ 0) ∧ 0 < 1 ∧ 1024 ≤ 1024 ∧
    nsOf st0 1 = some ns0 ∧ 0xFFFFFFFD < 0xFFFFFFFE ∧ 0x1C < 0x1D ∧ st0.vaon = true ∧
    ({ st0 with vaon := false } : State).vaon = false ∧ (1 = 1 ∨ 1 = 2) ∧ 65 ≠ 64 := by
  exact ⟨by decide, by decide, ⟨_, rfl⟩, by decide, rfl, by decide⟩

/-- A start-up input with nothing in the NOR, nothing fitted and nothing wrong. -/
def inp0 : StartupInput :=
  { testMode := false, portMode := false, priorSel := false, bootGoldN := true, nor := [], goodSlots := [1], dram := [],
    ces := [], temps := [], brokenSensors := [], failedUnits := [], keyFaults := [], replayMs := 0, checkpointBad := false,
    tornAt := none, sealOpen := false, bookBad := [], dirBad := [], pgFailures := 0 }

/-- A strap image of zeros. -/
def strap0 : StrapImage :=
  { ssvid := 0, ssid := 0, refclk := 0, pmbusAddr := 0, smbusAddr := 0, thEn := 0, huVfull := 0, huVmin := 0, huEff := 0,
    huPdump := 0, huCrated := 0, huItest := 0, vinDiv := 0, vinWarn := 0, vinReset := 0, opPct := 0, drWidth := 0,
    drDensity := 0, drRanks := 0, drMaxrate := 0, drRhth := 0, drTiming := [], nfMaxrate := 0, nfIf := 0, nfOdt := 0,
    nfSlcPfx := 0, nfTempFa := 0, nfDelta := 0, nfRetryFa := 0 }

theorem witness_LogsIdentifyAndManagement_straps :
    ({ st0 with startup := { st0.startup with input := some inp0 } } : State).startup.input.isSome = true := by decide

theorem witness_CompletionsAreDecided :
    sOk = sOk ∧ sField ≠ sOk ∧ (sVendor 0x85).sct = 7 ∧ (sVendor 0x85).sc = 0x85 ∧ (1 : PortId) ≠ adm.port := by decide

theorem witness_WritesAreDispatched :
    let size := if ns0.lbaf = 0 then 512 else 4096
    let free := fun (n : Namespace) (slba nlb : Nat) =>
      n.seals.all fun e => decide (slba + nlb + 1 ≤ e.slba ∨ e.slba + e.nlb ≤ slba)
    nsForIo st0 io 1 = some ns0 ∧ st0.dump.active = false ∧ st0.media.readOnly = false ∧ 0 + 63 + 1 ≤ ns0.nsze ∧
    free ns0 0 63 = true ∧ (63 + 1) * size ≤ 16777216 ∧ ¬(1 + 63 + 1 ≤ ns0.nsze) ∧
    nsForIo { st0 with namespaces := [(1, sealedNs)] } io 1 = some sealedNs ∧ free sealedNs 7 0 = false ∧
    free sealedNs 8 0 = true ∧ 16777216 < (32768 + 1) * size ∧ (∀ e ∈ ns0.seals, 0 < e.nlb) ∧
    ∀ e ∈ sealedNs.seals, 0 < e.nlb := by decide

/-- A device on which a one-block write waits for its commit point, with room for it and no more. -/
def committing (w : WriteOp) : State := { st0 with writes := [w], holdUp := { writeThrough := false, b := 512 } }

/-- The hypotheses of GranulesCommit, the room among them. -/
def commits (w : WriteOp) (g : Granule) : Prop :=
  (committing w).writes = [w] ∧ w.h = io ∧ nsOf (committing w) w.nsid = some ns0 ∧ w.kind = .write ∧
  w.granules = [g] ∧ w.committed = 0 ∧ w.checked = true ∧ w.held = false ∧ w.reserved = false ∧
  w.conforming = false ∧ w.task = none ∧ w.wt = false ∧ g.data.length = g.nlb * blockBytes ns0 ∧ 0 < g.nlb ∧
  (committing w).dump.active = false ∧ (committing w).media.readOnly = false ∧ sealed ns0 g.slba g.nlb = false ∧
  ns0.evid = false ∧ (litRegions (committing w)).isEmpty = false ∧ (committing w).holdUp.writeThrough = false ∧
  roomFor (committing w) false g.data.length = true

theorem commits_of_length (data : List Byte) (h : data.length = 512) :
    let g : Granule := { slba := 63, nlb := 1, data := data, dealloc := false }
    commits { oneWrite with granules := [g] } g := by
  refine ⟨rfl, rfl, rfl, rfl, rfl, rfl, rfl, rfl, rfl, rfl, rfl, rfl, ?_, Nat.zero_lt_one, rfl, rfl, rfl, rfl, rfl, rfl, ?_⟩
  · show data.length = 1 * blockBytes ns0
    rw [h]; decide
  · show decide (4096 * 0 + data.length + 0 ≤ 512 - 0) = true
    rw [h]; decide

theorem witness_GranulesCommit : ∃ w g, commits w g := ⟨_, _, commits_of_length (zeros 512) List.length_replicate⟩

theorem witness_ReadsReturnContent :
    let n := { ns0 with poison := [63] }
    let s : State := { st0 with namespaces := [(1, n)] }
    nsForIo s io 1 = some n ∧ 62 + 1 + 1 ≤ n.nsze ∧ rangeWaits s n 62 2 = false ∧ (1 + 1) * blockBytes n ≤ 16777216 ∧
    blockBad s 1 n 63 = true ∧ blockBad s 1 n 62 = false ∧
    rangeWaits st0 ns0 62 2 = false ∧ blockBad st0 1 ns0 62 = false ∧ blockBad st0 1 ns0 63 = false := by decide

theorem witness_FlushCompletesAtOnce :
    (nsForIo st0 io 1).isSome = true ∧ (nsForIo st0 io 2).isSome = false ∧ 2 ≠ 0xFFFFFFFF := by decide

/-- A baseline and a bank that admit a small reservation, and its parameters at the lowest latency bound. -/
def reservable : State := { st0 with base := { baseWbw := 1 }, holdUp := { b := 67108864 + 2048 } }

def resvData : List Byte := toLe 4 1 ++ toLe 4 512 ++ toLe 4 512 ++ toLe 4 5251

theorem witness_StreamReservations :
    let d : Cdw := { d10 := 65535 }
    let b := fit 64 resvData
    let q := reserveReq (actSlice reservable adm) 1 d b
    let full : State := { reservable with resvs := [resv0] }
    reserveFields reservable d b q = true ∧ ownsNs reservable (actSlice reservable adm) 1 = true ∧
    reservable.base.running = false ∧ reserveRefusal reservable q = none ∧
    reserveFields reservable {} b (reserveReq 0 1 {} b) = false ∧
    reserveFields full d b q = true ∧ ownsNs full (actSlice full adm) 1 = true ∧
    reserveRefusal full q = some (sVendor 0x8E, reserveReason 6 0) ∧
    1 ≤ 65535 ∧ 65535 < 65536 ∧ ({ d10 := BitVec.ofNat 32 65535 } : Cdw) = d ∧ resvOf full 1 65535 = some resv0 ∧
    resvOf reservable 1 65535 = none := by decide

/-- The bank at a step of its measurement, at the datum at which the next one is due. -/
def measuring (x : MeasureStep) : State :=
  { st0 with holdUp := { step := x, settled := true, charging := true, v0 := 3, v1 := 2 }, datum := 6000000000
             startup := { st0.startup with huValid := true } }

theorem witness_HoldUpAndDips_measurement :
    let u := (measuring (.waiting 0)).holdUp
    let cold : State := { measuring (.waiting 0) with holdUp := { u with settled := false } }
    let full := fun (s : State) (x : Nat) => ∀ i, s.startup.strap = some i → 99 * (i.huVfull : Rat) ≤ bankVolts x * 10000
    let low : State := { measuring .recharging with
      startup := { (measuring .recharging).startup with strap := some { strap0 with huVfull := 28000 } } }
    u.step = .waiting 0 ∧ u.settled = true ∧ u.forbidden = false ∧ u.latched = false ∧ cold.holdUp.step = .waiting 0 ∧
    cold.holdUp.settled = false ∧ u.retry = false ∧
    (measuring (.waiting 0)).dump.qualifying = none ∧ (measuring (.waiting 0)).dump.active = false ∧
    (measuring (.waiting 0)).startup.huValid = true ∧ 5999990000 + 10000 ≤ (measuring (.discharging 5999990000)).datum ∧
    (measuring (.discharging 5999990000)).holdUp.step = .discharging 5999990000 ∧
    (measuring (.discharging2 0)).holdUp.step = .discharging2 0 ∧ (100 * 1 ≤ 97 * u.v0 ∨ 0 + 2000000 ≤ (6000000000 : Nat)) ∧
    ¬(100 * 3 ≤ 97 * u.v0 ∨ 5999990000 + 2000000 ≤ (6000000000 : Nat)) ∧
    (measuring (.discharging2 5999990000)).holdUp.step = .discharging2 5999990000 ∧
    u.v1 < u.v0 ∧ 1 < u.v1 ∧ u.v1 ≤ 2 ∧ u.testers = [] ∧
    0 + 6000000000 ≤ (measuring (.waiting 0)).datum ∧ (measuring .recharging).holdUp.step = .recharging ∧
    full (measuring .recharging) 3 ∧ (measuring .recharging).holdUp.charging = true ∧
    low.holdUp.step = .recharging ∧ ¬full low 0 ∧
    discharging (measuring (.discharging2 0)).holdUp.step = true ∧ st0.startup.huValid = false := by
  repeat' apply And.intro
  all_goals first
    | decide
    | (intro i hi; cases hi)
    | (intro h; exact absurd (h _ rfl) (by decide +kernel))

theorem witness_HoldUpAndDips_dips :
    let q : State := { st0 with dump := { qualifying := some 800 } }
    let a : State := { st0 with dump := { active := true, windowOpen := true }, datum := 2000000 }
    let b : State := { st0 with dump := { recovery := some 0, brownOut := true }, datum := 2000000 }
    let p : State := { st0 with dump := { recovery := some 0, poweredDown := true }, datum := 2000000 }
    st0.dump.active = false ∧ st0.dump.brownOut = false ∧ st0.dump.poweredDown = false ∧ st0.dump.qualifying = none ∧
    st0.vaon = true ∧ q.dump.qualifying = some 800 ∧ 800 + 200 ≤ q.datum ∧ q.datum < 801 + 200 ∧ a.dump.active = true ∧
    a.dump.windowOpen = true ∧ a.dump.tick0 + 2000000 ≤ a.datum ∧ a.thermal.t3 = false ∧ a.writes = [] ∧ a.lines = [] ∧ { a with datum := 1999999 }.datum < a.dump.tick0 + 2000000 ∧
    b.dump.recovery = some 0 ∧ 0 + 2000000 ≤ b.datum ∧ b.dump.brownOut = true ∧ b.dump.active = false ∧
    b.thermal.t3 = false ∧ b.writes = [] ∧ b.supply.held = [] ∧ st0.lines = [] ∧ p.dump.recovery = some 0 ∧
    p.vaon = true ∧ p.dump.poweredDown = true ∧ p.thermal.t3 = false ∧ 0 + 2000000 ≤ p.datum ∧
    st0.dump.recovery = none := by decide

def link0 : Link :=
  { lseq := 0, slba := 0, nlb := 1, sid := 0, op := 1, datum := 0, opsec := 0, pcc := 1, ddig := [], link := [] }

def trig0 : MonTrigger := { kind := 1, mseq := 0, lseq := 0, head := [] }

/-- A custody namespace with one link. -/
def chained : Namespace := { ns0 with evid := true, chain := { links := [link0], pending := [trig0] } }

theorem witness_LinksAndMonuments :
    let s : State := { st0 with namespaces := [(1, chained)], datum := 6000000000, writes := [oneWrite],
                                holdUp := { writeThrough := true } }
    let still : Namespace := { chained with chain := { chained.chain with linksAtMon := 1 } }
    nsOf s 1 = some chained ∧ chained.evid = true ∧ (litRegions s).isEmpty = false ∧ chained.chain.forming = none ∧
    s.writes = [oneWrite] ∧ oneWrite.nsid = 1 ∧ oneWrite.granules.length = 1 ∧ oneWrite.committed = 0 ∧
    oneWrite.checked = true ∧ oneWrite.held = false ∧ oneWrite.kind = .write ∧ s.dump.active = false ∧
    s.holdUp.writeThrough = true ∧ chained.chain.links ≠ [] ∧ chained.chain.lastMon + 6000000000 ≤ s.datum ∧
    chained.chain.kind1Due = false ∧ still.chain.linksAtMon = still.chain.links.length ∧ still.evid = true ∧
    still.chain.links ≠ [] ∧ still.chain.lastMon + 6000000000 ≤ s.datum ∧ still.chain.kind1Due = false ∧
    chained.chain.linksAtMon < chained.chain.links.length ∧ chained.chain.pending = [trig0] ∧ trig0.waiter = none ∧
    s.turns = [] ∧ identityKey { s with keys := [] } = none := by
  repeat' apply And.intro
  all_goals first | rfl | decide

theorem witness_LinksAndMonuments_key : ∃ key, identityKey st0 = some key := ⟨Config.identityKey, rfl⟩

/-- A seal command's block for the last 8 blocks, and what it enters. -/
def sealData : List Byte := toLe 8 56 ++ toLe 8 8

def seal1 : SealEntry := { seal0 with slba := 56, complete := false }

def pend1 (fixed : Bool) : PendingSeal := { h := some adm, slba := 56, nlb := 8, label := [], fixed := fixed }

def sealing (l : List SealEntry) (p : List PendingSeal) : Namespace := { ns0 with evid := true, seals := l, sealing := p }

theorem witness_RangeDigestsAndSeals_digest :
    let d : Cdw := { d10 := 60, d12 := 3, d14 := 160 }
    nsForIo st0 io 1 = some ns0 ∧ d.d13 = 0 ∧ d.d14.toNat % 4 = 0 ∧ 160 ≤ d.d14.toNat ∧ 60 + d.d12.toNat + 1 ≤ ns0.nsze ∧
    rangeWaits st0 ns0 60 4 = false ∧ (∀ i ∈ List.range 4, blockBad st0 1 ns0 (60 + i) = false) ∧
    ns0.nsze < 60 + ({ d12 := 4 } : Cdw).d12.toNat + 1 ∧ ({ d14 := 156 } : Cdw).d14.toNat < 160 := by decide

theorem witness_RangeDigestsAndSeals_seals :
    let b := fit 64 sealData
    let n := sealing [] []
    let s := fun m : Namespace => ({ st0 with namespaces := [(1, m)] } : State)
    let w := fun m : Namespace => ({ s m with presence := { state := .opened } } : State)
    let f := sealing [seal1] [pend1 true]
    let done := sealing [{ seal1 with complete := true }] []
    let p := sealing [] [pend1 false]
    let g : Granule := { slba := 0, nlb := 57, data := [], dealloc := true }
    let overlap : WriteOp := { oneWrite with kind := .deallocate, granules := [g] }
    let sealTurn : NsTurn := { h := adm, slice := 0, cmd := .sealing 1 sealData }
    let unsealTurn : NsTurn := { h := adm, slice := 0, cmd := .unsealing 1 sealData [] }
    nsOf (s n) 1 = some n ∧ n.evid = true ∧ goesAway (s n) n = false ∧ ofLe (b.take 8) = 56 ∧ ofLe ((b.drop 8).take 8) = 8 ∧
    1 ≤ 8 ∧ 8 ≤ 2 ^ 32 ∧ 56 + 8 ≤ n.nsze ∧ actSlice (s n) adm = 0 ∧ (b.drop 32).all (· == 0) = true ∧
    turnWaits (s n) sealTurn = false ∧ turnWaits (s p) sealTurn = true ∧ turnWaits (s p) unsealTurn = true ∧
    sealLoad (s n) < 65536 ∧ p.sealing = [pend1 false] ∧ (pend1 false).fixed = false ∧ (s p).writes = [] ∧
    goesAway (s p) p = false ∧ p.nsze = 64 ∧
    overlap.nsid = 1 ∧ overlap.granules = [g] ∧ overlap.committed = 0 ∧ overlap.checked = true ∧ overlap.task = none ∧
    g.slba < (pend1 false).slba + (pend1 false).nlb ∧ (pend1 false).slba < g.slba + g.nlb ∧
    f.seals = [seal1] ∧ seal1.complete = false ∧ (s f).turns = [] ∧ goesAway (s f) f = false ∧
    f.sealing = [{ h := some adm, slba := seal1.slba, nlb := seal1.nlb, label := seal1.label, fixed := true }] ∧
    (∀ u ∈ unitsTouched f seal1.slba seal1.nlb, unitBad (s f) 1 f u seal1.slba seal1.nlb = false) ∧
    (b.drop 16).all (· == 0) = true ∧ turnWaits (s n) unsealTurn = false ∧ windowOpen (s n) = false ∧
    turnWaits (w done) unsealTurn = false ∧ windowOpen (w done) = true ∧
    done.seals = [{ seal1 with complete := true }] ∧ seal1.slba = 56 ∧ seal1.nlb = 8 ∧ done.map = [] := by
  repeat' apply And.intro
  all_goals first | rfl | decide

/-- A buffered unit 0 of namespace 1. -/
def bufferedNs : Namespace := { ns0 with map := [(0, { kind := .buffered })] }

/-- A die in service with 4 pages a block and 3 erased blocks. -/
def farmDie : Die := { state := .inService, blocks := 8, pagesPerBlock := 4, freeBlocks := [1, 2, 3] }

/-- The 24 dies of group 0 on channels 0 to 23. -/
def farmDies : Tab Die := (List.range 24).map fun ch => (32 * ch, farmDie)

/-- A superblock over block 0 of each of those dies. -/
def sb0 : Superblock :=
  { group := 0, state := .opened, par2 := false, slc := false, dump := false,
    members := (List.range 24).map fun ch => (32 * ch, 0), nextStripe := 2 }

def flash0 (b : Superblock) (p : Option Nat) : State :=
  { st0 with
    namespaces := [(1, bufferedNs)]
    lines := [{ nsid := 1, quarter := 3, mask := 255, programmed := p }]
    media := { sbs := [(5, b)], dies := farmDies } }

/-- The group of the farm has three free superblocks. -/
theorem farm_groupOpen (s : State) (h : s.media.dies = farmDies) : groupOpen s false 0 = true := by
  unfold groupOpen freeSbCount dieOf
  rw [h, List.mergeSort_of_pairwise (by decide)]; decide

theorem witness_DestagePlacesUnits :
    let s := flash0 sb0 none
    let x : Placed := { stripe := 1, member := 3, what := .unit 1 0 }
    let b : Superblock := { sb0 with programming := [1], placed := [x] }
    let t := flash0 b (some (5 * 2 ^ 24 + 1))
    Tab.get? s.media.sbs 5 = some sb0 ∧ nsOf s 1 = some bufferedNs ∧ takesStripe s sb0 = true ∧ programRoom s sb0 = true ∧
    groupOpen s false sb0.group = true ∧ some 5 ≠ s.media.wlTarget ∧ s.dump.active = false ∧
    sb0.dump = false ∧ pairFirst s false sb0 [(1, 0)] = true ∧ bufferedNs.par2 = sb0.par2 ∧
    (entryOf bufferedNs 0).kind = .buffered ∧ (entryOf bufferedNs 0).prevKind = .deallocated ∧
    sb0.nextStripe + 1 < pagesOf s sb0.slc ∧ (∃ l ∈ s.lines, l.nsid = 1 ∧ l.quarter / 4 = 0 ∧ l.programmed = none) ∧
    Tab.get? t.media.sbs 5 = some b ∧ nsOf t 1 = some bufferedNs ∧ b.programming = [1] ∧
    b.placed.filter (fun p => decide (p.stripe = 1)) = [x] ∧ x.what = .unit 1 0 ∧ x.source = none ∧
    (∀ l ∈ t.lines, l.nsid = 1 → l.quarter / 4 = 0 → l.programmed = some (5 * 2 ^ 24 + 1)) := by
  repeat' apply And.intro
  all_goals first | exact farm_groupOpen _ rfl | rfl | decide

/-- A farm of dies with one superblock, numbered 5. -/
def farm (b : Superblock) : State :=
  { st0 with
    dram := { gib := 1 }
    opsec := 30
    media := { sbs := [(5, b)], dies := farmDies, dpc := 1, reclaimed := 64, nextSb := 6,
               blocks := [(blockKey 0 1, { ec := 501 })] } }

def closed0 : Superblock := { sb0 with state := .closed, members := [(0, 0)] }

def erasing0 : Superblock := { closed0 with state := .erasing }

/-- Map page 0 of namespace 1 as given, beside a superblock. -/
def withMapPage (b : Superblock) (p : MapPage) : State :=
  { farm b with media := { (farm b).media with pages := [(1 * 2 ^ 32 + 0, p)] } }

/-- A granule record without deltas. -/
def rec0 (q : Nat) : JournalRecord := { seq := q, body := .sbState 5 .closed false [] }

theorem witness_MapJournalAndReclaim_pages :
    let away : MapPage := { mediaSeq := 7 }
    let dirty : MapPage := { cached := true, dirty := true, seq := 9 }
    let lost : MapPage := { lost := true }
    let s := withMapPage sb0 dirty
    let x : Placed := { stripe := 1, member := 3, what := .mapPage 1 0 }
    let y : Placed := { stripe := 1, member := 0, what := .unit 1 0 }
    let b : Superblock := { sb0 with programming := [1], placed := [x] }
    let scanned : Superblock := { closed0 with placed := [y] }
    (away.cached = false ∧ away.lost = false ∧
      ((withMapPage sb0 away).media.pages.filter fun e => e.2.cached).length < mapCachePages (withMapPage sb0 away) ∧ 2 < 3) ∧
    (dirty.cached = true ∧ dirty.dirty = true ∧ s.dump.active = false ∧ s.media.sbs = [(5, sb0)] ∧ sb0.par2 = anyPar2 s ∧
      sb0.dump = false ∧ some 5 ≠ s.media.wlTarget ∧ takesStripe s sb0 = true ∧ groupOpen s false sb0.group = true ∧
      sb0.nextStripe + 1 < pagesOf s sb0.slc ∧ nsOf s 1 = some ns0) ∧
    (Tab.get? (withMapPage b dirty).media.sbs 5 = some b ∧ b.programming = [1] ∧
      b.placed.filter (fun p => decide (p.stripe = 1)) = [x] ∧ x.what = .mapPage 1 0) ∧
    (lost.lost = true ∧ ((withMapPage scanned lost).media.pages.filter fun e => e.2.cached).length <
        mapCachePages (withMapPage scanned lost) ∧ (withMapPage scanned lost).media.sbs = [(5, scanned)] ∧
      scanned.state = .closed ∧ scanned.placed = [y] ∧ y.what = .unit 1 0 ∧ pageOf 0 = 0 ∧
      nsOf (withMapPage scanned lost) 1 = some ns0 ∧ (entryOf ns0 0).kind ≠ .buffered ∧ (entryOf ns0 0).retained = false ∧
      (deltasAfter (withMapPage scanned lost) 1 0 y.seq).any (fun d => decide (d.2.unit = 0)) = false) := by
  repeat' apply And.intro
  all_goals first | exact farm_groupOpen _ rfl | rfl | decide

theorem witness_MapJournalAndReclaim_journal :
    let s : State := { st0 with media := { journal := [rec0 4, rec0 5] } }
    s.media.journal = rec0 4 :: [rec0 5] ∧ (rec0 4).seq = 4 ∧ (rec0 4).seq ≠ 5 ∧ checkpointDue (farm sb0) = true ∧
    dirtyPages (farm sb0) = [] ∧ checkpointDue st0 = false := by
  repeat' apply And.intro
  all_goals first | rfl | decide

/-- The group of the farm has three free superblocks. -/
theorem farm_freeSbCount (s : State) (h : s.media.dies = farmDies) : freeSbCount s 0 = 3 := by
  unfold freeSbCount dieOf
  rw [h, List.mergeSort_of_pairwise (by decide)]; decide

/-- Unit 0 lies on die 0 in superblock 5, and an opened superblock 6 takes its copy. -/
def movable : State :=
  let n : Namespace := { ns0 with map := [(0, { kind := .onNand, sb := 5 })] }
  let open_ : Superblock := { sb0 with members := (List.range 24).map fun ch => (32 * ch, 1) }
  { farm closed0 with
    namespaces := [(1, n)]
    media := { (farm closed0).media with sbs := [(5, closed0), (6, open_)] } }

theorem witness_MapJournalAndReclaim_moves :
    let s := farm closed0
    let n : Namespace := { ns0 with map := [(0, { kind := .onNand, sb := 5 })] }
    let x : Placed := { stripe := 1, member := 3, what := .unit 1 0, source := some (entryOf n 0, 5) }
    let b : Superblock := { sb0 with programming := [1], placed := [x] }
    let going : State := { farm erasing0 with media := { (farm erasing0).media with sources := [(5, .reclaim)] } }
    (freeSbCount s 0 < 8 ∧ s.media.sbs = [(5, closed0)] ∧ reclaimable s 0 5 closed0 = true ∧ refreshing s closed0 = false) ∧
    (nsOf movable 1 = some n ∧ (entryOf n 0).kind = .onNand ∧ (entryOf n 0).sb = 5 ∧ unitSealed n 0 = false ∧
      Tab.get? movable.media.sbs 5 = some closed0 ∧ (freePage movable n 5 96 6).isSome = true) ∧
    (Tab.get? (farm b).media.sbs 5 = some b ∧ b.programming = [1] ∧
      b.placed.filter (fun p => decide (p.stripe = 1)) = [x] ∧ x.what = .unit 1 0 ∧ x.source = some (entryOf n 0, 5)) ∧
    (sourceReady s 5 closed0 = true ∧ s.dump.active = false) ∧
    (erasing0.state = .erasing ∧ going.dump.active = false ∧ erasing0.members = [(0, 0)] ∧
      (dieOf going 0).state = .inService ∧ Tab.get? going.media.sources 5 = some .reclaim ∧
      (Tab.getD going.media.blocks (blockKey 0 0) {}).retainedFor = [] ∧
      (Tab.getD going.media.blocks (blockKey 0 0) {}).retired = false) ∧
    (wearSpread s = true ∧ wornest s = some 0 ∧ closed0.state = .closed ∧ 64 ≤ s.media.reclaimed ∧ s.media.wlTarget = none ∧
      Tab.has s.media.sources 5 = false) := by
  repeat' apply And.intro
  all_goals first | decide +kernel | (rw [farm_freeSbCount _ rfl]; decide)

theorem witness_DiesBlocksAndChannelsFail :
    let wide : Superblock := { sb0 with members := (List.range 25).map fun i => (i, 0) }
    let dump : Superblock := { wide with dump := true }
    let s := fun b : Superblock => { flash0 b none with dump := { active := b.dump } }
    let bare : State := { farm sb0 with media := { (farm sb0).media with sbs := [] } }
    (dieOf bare 0).state = .inService ∧ bare.media.sbs = [] ∧ Tab.get? (s dump).media.sbs 5 = some dump ∧
    dump.members.findIdx? (fun m => decide (m.1 = 0)) = some 0 ∧ dump.members[0]? = some (0, 0) ∧ dump.dump = true ∧
    (s dump).dump.active = true ∧ Tab.get? (s wide).media.sbs 5 = some wide ∧
    wide.members.findIdx? (fun m => decide (m.1 = 0)) = some 0 ∧ wide.members[0]? = some (0, 0) ∧
    wide.members.find? (fun m => decide (m.1 = 0)) = some (0, 0) ∧ wide.dump = false ∧ 24 < wide.members.length ∧
    (Tab.getD (s wide).media.blocks (blockKey 0 0) {}).retired = false ∧
    (Tab.getD (s dump).media.blocks (blockKey 0 0) {}).retired = false ∧ (dieOf (s wide) 0).retiredAt = [] ∧
    (dieOf (s dump) 0).retiredAt = [] ∧ st0.media.failedChannels = [] := by
  repeat' apply And.intro
  all_goals first | rfl | decide

theorem witness_DiesBlocksAndChannelsFail_channel : ∀ d, (dieOf st0 d).state ≠ .inService := by
  intro d
  show DieState.notFitted ≠ .inService
  decide

theorem witness_ReadsRebuildsAndWindows :
    let n : Namespace := { ns0 with map := [(0, { kind := .onNand, sb := 6 })] }
    let b : Superblock := { sb0 with state := .closed }
    let s : State := { flash0 b none with namespaces := [(1, n)], datum := 200000 }
    let late : State := { s with media := { s.media with answered := [(1, 0, 0)] } }
    let dark : State := { st0 with regions := [(7, { state := .umbra })] }
    let worn : State := { st0 with faults := { retired := [{ site := { kind := 3, index := 31 }, restorable := true }] } }
    let warm : State := { st0 with media := { dies := [(0, { state := .inService, outCount := 1 })] } }
    let clean : CwRead := { hard := [{ iters := 1, weight := 0 }], minus := 0, plus := 0, soft := 0, softMinus := 0, softPlus := 0 }
    s.media.answered.contains (1, 0, 0) = false ∧ (pageOutcomes s 0 0 [clean, clean]).contains .failed = false ∧
    late.media.answered.contains (1, 0, 0) = true ∧ 0 + 200000 ≤ s.datum ∧ s.datum < 1 + 200000 ∧
    nsOf s 1 = some n ∧ (entryOf n 0).kind = .onNand ∧ Tab.get? s.media.sbs (entryOf n 0).sb = none ∧ 1 ≤ 1 ∧
    (1, 0) ∉ s.media.relocate ∧ Tab.get? s.media.sbs 5 = some b ∧ b.state = .closed ∧
    b.placed = [] ∧ b.members ≠ [] ∧ engineUp dark ((31 / 4 + 1) % 8) 31 = true ∧ dark.media.adopted = [] ∧
    dark.media.failedChannels = [] ∧ isLit dark (31 / 4) = false ∧
    isLit worn (31 / 4) = true ∧ engineUp worn (31 / 4) 31 = false ∧ engineUp worn ((31 / 4 + 1) % 8) 31 = true ∧
    worn.media.adopted = [] ∧ worn.media.failedChannels = [] ∧ engineUp st0 (31 / 4) 31 = true ∧
    ({ st0 with media := { adopted := [31] } } : State).media.adopted = [31] ∧ (dieOf s 0).state = .inService ∧
    (dieOf s 0).nextSample ≤ s.datum ∧
    (dieOf s 0).stopped = false ∧ (dieOf s 0).outCount = 0 ∧ (dieOf warm 0).state = .inService ∧
    (dieOf warm 0).nextSample ≤ warm.datum ∧
    (dieOf warm 0).stopped = false ∧ (dieOf warm 0).outCount = 1 ∧ (95 : Int) < 96 ∧ phyReading s (0 / 32) = none := by
  repeat' apply And.intro
  all_goals first | rfl | decide

/-- A channel of DRAM in service, none of its maintenance due. -/
def dramChan : DramChannel := { fitted := true, inService := true }

def dramDev (c : DramChannel) : State := { st0 with datum := 0, dram := { channels := [(7, c)], gib := 8 } }

/-- A request for offset 0. -/
def dramReq (w : Bool) : DramRequest :=
  { write := w, place := .setS 0, second := true, data := zeros 64, enables := BitVec.allOnes 64, deadline := none,
    content := .setS, reader := .none }

theorem witness_DramRowsFillAndLoss :
    let k := bankKeyOf (burstLoc (dramOrg st0) 7 0)
    let row := (burstLoc (dramOrg st0) 7 0).row
    let c := fun w : Bool => { dramChan with queues := [(0, [(0, dramReq w)])], tables := [(k, [(row, 2046)])] }
    let held : DramChannel := { c false with heldRows := [(k, row)] }
    let due : DramChannel := { dramChan with heldRows := [(3, 9)], tables := [(3, [(9, 2048), (10, 7)])] }
    let hurt := upset 7 0 [(3, 0xA5), (5, 1)] (dramDev dramChan)
    let s := dramDev (c false)
    (∀ w, queueOf (dramDev (c w)) 7 0 = [(0, dramReq w)]) ∧ (∀ w, (dramOf (dramDev (c w)) 7).inService = true) ∧
    s.dram.selfRefresh = false ∧ (∀ w, stillWaking (dramOf (dramDev (c w)) 7) = false) ∧
    (∀ w, maintenanceDue (dramDev (c w)) 7 = false) ∧ (∀ w, (dramOf (dramDev (c w)) 7).heldRows = []) ∧
    rowCount (Tab.getD (c false).tables k []) row + 1 < s.dram.rhth ∧
    (Tab.getD (c false).tables k []).any (fun e => decide (e.1 = row)) = true ∧ (dramReq false).write = false ∧
    decodeBurst (burstLoc (dramOrg s) 7 0) (burstAt s 7 0) = .clean ∧ (dramReq true).write = true ∧
    (dramReq true).enables = BitVec.allOnes 64 ∧ (dramReq true).content = .setS ∧
    (dramOf (dramDev held) 7).heldRows.contains (k, row) = true ∧ queueOf (dramDev held) 7 0 = [(0, dramReq false)] ∧
    due.heldRows = [(3, 9)] ∧ Tab.getD due.tables 3 [] = [(9, (dramDev due).dram.rhth), (9 + 1, 7)] ∧
    7 ≤ (dramDev due).dram.rhth ∧ (c false).revisit = [] ∧ (c false).traversed < channelBursts s ∧
    (match decodeBurst (burstLoc (dramOrg hurt) 7 0) (burstAt hurt 7 0) with | .corrected .. => true | _ => false) = true ∧
    dramChan.queues = [] ∧ s.dram.brokenPairs.contains (7 % 4) = false ∧ s.slices = [] ∧ (dramOf s 0).inService = false ∧
    ({ c false with revisit := [0] } : DramChannel).revisit.contains 0 = true ∧ (c false).revisit.contains 0 = false := by
  repeat' apply And.intro
  all_goals decide +kernel

/-! ### Opxus instructions -/

theorem issues_onCore (k : Task) (h : k.fw = true ∨ k.exhausted = false) (hpc : k.pc = 0) :
    Issues (onCore k) 0 .always (viewOf k) := by
  refine ⟨rfl, h, ?_, ?_⟩
  · show k.pc.toNat < 2 ^ 24
    rw [hpc]; decide
  · rfl

theorem witness_AluOperations :
    Issues (onCore prTask) 0 .always (viewOf prTask) ∧ (31#5).toNat + (0#5).toNat + 1 ≤ 32 ∧
    (0#5).toNat + (31#5).toNat + 1 ≤ 32 :=
  ⟨issues_onCore _ (.inr rfl) rfl, by decide, by decide⟩

theorem witness_ComparesAndPredicates :
    Issues (onCore prTask) 0 .always (viewOf prTask) ∧ (11#4).toNat < 12 ∧ (2#2).toNat < 3 :=
  ⟨issues_onCore _ (.inr rfl) rfl, by decide, by decide⟩

/-- A task whose w5 addresses the last word of the block scratch, with room there for a push. -/
def memTask : Task := { prTask with regs := Vector.replicate 32 0xBFFC, ds := 0xBFFC, dlim := 0xBFF8 }

theorem witness_LoadsAndPop :
    let v := viewOf memTask
    let s := onCore memTask
    Issues s 0 .always v ∧ v.task.storeError = none ∧ v.core.trapped = false ∧ (rd v 5 + (0#12).signExtend 32).toNat % 4 = 0 ∧
    (rd v 5 + (3#12).signExtend 32).toNat % 1 = 0 ∧ (rd v 5 + (2#12).signExtend 32).toNat % 2 = 0 ∧
    v.task.ds.toNat % 4 = 0 ∧ place s 0 memTask 0xBFFC = some (.scratch 0, 0x3FFC, true) ∧
    burstLost s (.scratch 0) 0x3FFC = false ∧ place s 0 memTask 0xBFFF = some (.scratch 0, 0x3FFF, true) ∧
    burstLost s (.scratch 0) 0x3FFF = false ∧ place s 0 memTask 0xBFFE = some (.scratch 0, 0x3FFE, true) ∧
    burstLost s (.scratch 0) 0x3FFE = false := by
  refine ⟨issues_onCore _ (.inr rfl) rfl, rfl, ?_⟩
  decide

/-- The same task with `n` stores posted. -/
def posted (n : Nat) : State :=
  { st0 with tasks := [(0, memTask)]
             domains := [(0, .on)]
             cores := [(0, { run := some 0, stores := List.replicate n (0x8000, [1, 2, 3, 4]) })] }

def postedView (n : Nat) : View :=
  { c := 0, t := 0, task := memTask, core := { run := some 0, stores := List.replicate n (0x8000, [1, 2, 3, 4]) } }

theorem issues_posted (n : Nat) : Issues (posted n) 0 .always (postedView n) :=
  ⟨rfl, .inr rfl, by show (0 : Nat) < 2 ^ 24; decide, rfl⟩

theorem witness_StoresAreEntered :
    let v := postedView 7
    let s := posted 7
    Issues s 0 .always v ∧ v.core.stores.length < 8 ∧ (rd v 5 + (0#12).signExtend 32).toNat % 4 = 0 ∧
    (rd v 5 + (3#12).signExtend 32).toNat % 1 = 0 ∧ (rd v 5 + (2#12).signExtend 32).toNat % 2 = 0 ∧
    place s 0 memTask 0xBFFC = some (.scratch 0, 0x3FFC, true) ∧ place s 0 memTask 0xBFFF = some (.scratch 0, 0x3FFF, true) ∧
    place s 0 memTask 0xBFFE = some (.scratch 0, 0x3FFE, true) ∧ v.core.trapped = false ∧
    v.task.dlim.toNat + 4 ≤ v.task.ds.toNat ∧ (v.task.ds - 4).toNat % 4 = 0 ∧
    place s 0 memTask 0xBFF8 = some (.scratch 0, 0x3FF8, true) ∧
    Issues (posted 8) 0 .always (postedView 8) ∧ (postedView 8).core.stores.length = 8 := by
  refine ⟨issues_posted 7, ?_, ?_, ?_, ?_, ?_, ?_, ?_, ?_, ?_, ?_, ?_, issues_posted 8, ?_⟩ <;> decide

theorem witness_OldestStoreIsPerformed :
    let v := postedView 1
    let s := posted 1
    running s 0 = some v ∧ v.core.stores = (0x8000, [1, 2, 3, 4]) :: [] ∧
    ([1, 2, 3, 4] : List Byte).length = 4 ∧ (0x8000#32).toNat % 4 = 0 ∧
    place s 0 memTask 0x8000 = some (.scratch 0, 0, true) ∧ 0 % 4 = 0 ∧ burstLost s (.scratch 0) 0 = false ∧
    Issues s 0 .always v ∧ v.core.stores ≠ [] ∧ portTrap { v with task := fwTask } (portNo { v with task := fwTask } 0 0x10) = none := by
  refine ⟨rfl, rfl, ?_, ?_, ?_, ?_, ?_, issues_posted 1, ?_, ?_⟩ <;> decide

/-- A task with one return address, and a handler with a full return stack but one. -/
def callTask : Task := { prTask with rstack := [0xFFFFFC], regs := Vector.replicate 32 0xFFFFFC }

def trappedCore : Core := { run := some 0, trapped := true, fw := true, hstack := List.replicate 15 0, tbase := 64 }

def trappedState (k : Task) : State :=
  { st0 with tasks := [(0, k)], cores := [(0, trappedCore)], domains := [(0, .on)] }

def trappedView (k : Task) : View := { c := 0, t := 0, task := k, core := trappedCore }

theorem issues_trapped (k : Task) : Issues (trappedState k) 0 .always (trappedView k) :=
  ⟨rfl, .inl rfl, by show (0 : Nat) < 2 ^ 24; decide, rfl⟩

/-- A core that holds one return address on the chip. -/
def chipCore : Core := { run := some 0, rchip := [0xFFFFFC] }

theorem witness_ControlTransfers :
    let v := viewOf callTask
    let s := onCore callTask
    let vh := trappedView callTask
    let sh := trappedState callTask
    let vc : View := { v with core := chipCore }
    let sc : State := { s with cores := [(0, chipCore)] }
    let ok := fun (s : State) (v : View) (x : Word) => x.toNat % 4 = 0 ∧ x.toNat < 2 ^ 24 ∧ x.toNat < imageBytes s v
    Issues s 0 .always v ∧ Issues sh 0 .always vh ∧ Issues sc 0 .always vc ∧
    ok s v (viewPc v + 4 * (2097151#22).signExtend 32) ∧ ok s v (rd v 5) ∧
    v.core.rchip.length + v.task.rstack.length < 4096 ∧ vh.core.hstack.length < 16 ∧ vh.core.trapped = true ∧
    vh.core.hstack = 0 :: List.replicate 14 0 ∧ ok sh vh 0 ∧ ok s v 0xFFFFFC ∧ vc.core.rchip = 0xFFFFFC :: [] ∧
    ok sc vc 0xFFFFFC ∧ v.core.rchip = [] ∧ v.task.rstack = 0xFFFFFC :: [] := by
  refine ⟨issues_onCore _ (.inr rfl) rfl, issues_trapped _, ⟨rfl, .inr rfl, by decide, rfl⟩, ?_⟩
  decide

theorem witness_SpecialRegisters :
    Issues (onCore fwTask) 0 .always (viewOf fwTask) ∧ viewFw (viewOf fwTask) = true ∧ (viewOf fwTask).task.fw = true ∧
    Issues (trappedState prTask) 0 .always (trappedView prTask) ∧ viewFw (trappedView prTask) = true ∧
    (trappedView prTask).task.fw = false ∧ (trappedView prTask).core.trapped = true ∧ (1 : PReg) ≠ 0 :=
  ⟨issues_onCore _ (.inl rfl) rfl, rfl, rfl, issues_trapped _, rfl, rfl, rfl, by decide⟩

/-- A task that waits in turn for flags it has and flags it has not. -/
def flagTask : Task := { prTask with flags := 4 }

/-- The same beside another task at the highest index. -/
def twoTasks : State :=
  { onCore flagTask with tasks := [(0, flagTask), (16383, { prTask with gen := 32767, phase := .ready })] }

theorem witness_SystemGroup :
    let v := viewOf flagTask
    let m := rd v 5
    Issues twoTasks 0 .always v ∧ v.core.stores = [] ∧ v.task.storeError = none ∧ coreOfTask twoTasks 0 = some 0 ∧
    m = 5 ∧ v.task.flags &&& m ≠ 0 ∧ v.task.flags &&& m ≠ m ∧ m ≠ 0 ∧ v.task.flags &&& 2 = 0 ∧
    v.task.flags &&& 4 = 4 ∧ v.task.sigevLog.length ≤ v.task.sigevs ∧
    taskOf twoTasks 16383 = some { prTask with gen := 32767, phase := .ready } ∧ 16383 < 16384 ∧ 16383 ≠ v.t ∧
    tidOf 16383 { prTask with gen := 32767, phase := .ready } = 0x7FFF3FFF ∧ prTask.slice = v.task.slice ∧
    taskOf twoTasks (m.toNat % 16384) = none ∧ (63#32).toNat % 256 < 0x40 := by
  refine ⟨⟨rfl, .inr rfl, by decide, rfl⟩, ?_⟩
  decide

theorem witness_TrapEntryAndReturn :
    Issues (onCore prTask) 0 .always (viewOf prTask) ∧ (viewOf prTask).core.trapped = false ∧
    (3#12 = 1 ∨ 3#12 = 2 ∨ 3#12 = 3) ∧ Issues (trappedState prTask) 0 .always (trappedView prTask) ∧
    (trappedView prTask).core.trapped = true :=
  ⟨issues_onCore _ (.inr rfl) rfl, rfl, by decide, issues_trapped _, rfl⟩

theorem witness_FalseGuardHasNoEffect :
    opHead (.opAdd 0 { neg := true, p := 0 } 1 2 3) = some (0, { neg := true, p := 0 }, true) ∧
    running (onCore prTask) 0 = some (viewOf prTask) ∧ (viewOf prTask).task.exhausted = false ∧
    (viewPc (viewOf prTask)).toNat < imageBytes (onCore prTask) (viewOf prTask) ∧
    guardTrue (viewOf prTask) { neg := true, p := 0 } = false := by
  refine ⟨rfl, rfl, rfl, ?_, rfl⟩; decide

/-- A program's task at the last address of an 8-byte program. -/
def shortProgram (k : Task) : State :=
  { onCore { k with slot := 3 } with
    cores := [(0, { run := some 0, slot := 3 })]
    progs := [(3, { slice := 0, entry := 0, code := zeros 8, data := [], zeroLen := 0, stackLen := 0, isa := 1, version := 1,
                    name := [], keyfp := [] })] }

theorem witness_TrapsEndProgramTasks :
    let v := viewOf prTask
    let s := onCore prTask
    let end_ : Task := { prTask with pc := 8, slot := 3 }
    let ve : View := { viewOf end_ with core := { run := some 0, slot := 3 } }
    Issues s 0 .always v ∧ v.core.trapped = false ∧ v.core.fw = false ∧ coreOfTask s 0 = some v.c ∧
    running (onCore { prTask with exhausted := true }) 0 = some (viewOf { prTask with exhausted := true }) ∧
    (viewOf { prTask with exhausted := true }).task.exhausted = true ∧
    running (shortProgram end_) 0 = some ve ∧ imageBytes (shortProgram end_) ve ≤ (viewPc ve).toNat ∧
    opHead (.opBfx 0 .always 1 2 31 1) = some (0, .always, false) ∧ (rd v 5 + (0#12).signExtend 32).toNat % 4 ≠ 0 ∧
    (rd v 5 + (3#12).signExtend 32).toNat % 4 = 0 ∧ place s 0 prTask 8 = none ∧ place s 0 prTask 0x8000 ≠ none ∧
    (viewOf { memTask with storeError := some 0x8000 }).task.storeError = some 0x8000 ∧
    v.task.ds.toNat < v.task.dlim.toNat + 4 ∧ ¬targetOk s v (viewPc v + 4 * (0x3FFFFF#22).signExtend 32) ∧ v.core.rchip = [] ∧ v.task.rstack = [] ∧
    (rd v 0 + (0x800#12).zeroExtend 32).toNat % 65536 / 256 = 0x08 ∧
    0x0A < (rd v 0 + (0xB00#12).zeroExtend 32).toNat % 65536 / 256 ∧ (rd v 0 + (0xB00#12).zeroExtend 32).toNat % 65536 / 256 ≠ 0x0F ∧
    3 < (4#12).toNat := by
  refine ⟨issues_onCore _ (.inr rfl) rfl, rfl, rfl, rfl, rfl, rfl, rfl, ?_⟩
  decide

theorem witness_TrapsEndProgramTasks_calls : ∃ l : List Word, 4096 ≤ (viewOf { prTask with rstack := l }).core.rchip.length + l.length ∧
    Issues (onCore { prTask with rstack := l }) 0 .always (viewOf { prTask with rstack := l }) :=
  ⟨List.replicate 4096 0, Nat.le_of_eq (by rw [List.length_replicate]; rfl), issues_onCore _ (.inr rfl) rfl⟩

theorem witness_PlainPorts :
    let v := viewOf prTask
    Issues (onCore prTask) 0 .always v ∧ v.task.storeError = none ∧ v.core.stores = [] ∧
    (rd v 0 + (0x703#12).zeroExtend 32).toNat % 65536 = 0x0703 ∧
    (rd v 0 + (0#12).zeroExtend 32).toNat % 65536 = 0x0000 :=
  ⟨issues_onCore _ (.inr rfl) rfl, rfl, rfl, by decide, by decide⟩

theorem witness_DatumPairReads :
    let v := viewOf { prTask with ports := { nowHi := some 7 } }
    Issues (onCore v.task) 0 .always v ∧ v.task.storeError = none ∧ v.core.stores = [] ∧
    (rd v 0 + (0x700#12).zeroExtend 32).toNat % 65536 = 0x0700 ∧
    (rd v 0 + (0x701#12).zeroExtend 32).toNat % 65536 = 0x0701 ∧ v.task.ports.nowHi = some 7 ∧
    (viewOf prTask).task.ports.nowHi = none :=
  ⟨issues_onCore _ (.inr rfl) rfl, rfl, rfl, by decide, by decide, rfl, rfl⟩

/-- A program, a pool with its first buffer held by the task and its second free, and room for more. -/
def prog0 : ProgSlot :=
  { slice := 0, entry := 8, code := [], data := [], zeroLen := 0, stackLen := 0, isa := 1, version := 1, name := [],
    keyfp := [] }

def pool0 : Pool :=
  { slice := 0, log2sz := 12, count := 2, base := 0x40000000, region := 0, quota := 0, used := [(0, (1, 0xFFFF))] }

def poolTask : Task :=
  { prTask with
    regs := Vector.replicate 32 0x40000000, steps := 11,
    ports := { spBudget := 10, spSlot := 3, plCfg := 0x01800000#32 } }

def pooled (k : Task) : State :=
  { onCore k with poolTab := [(0, pool0)], progs := [(3, prog0)], dram := { filledMib := 1 } }

theorem issues_pooled (k : Task) (h : k.fw = false) (he : k.exhausted = false) (hpc : k.pc = 0) :
    Issues (pooled k) 0 .always (viewOf k) := by
  refine ⟨rfl, .inr he, ?_, rfl⟩
  cases hf : k.fw with
  | true => rw [h] at hf; cases hf
  | false => show k.pc.toNat < 2 ^ 24; rw [hpc]; decide

theorem witness_DatumTaskAndPoolPorts_ports :
    let v := viewOf poolTask
    let s := pooled poolTask
    let held : Task := { poolTask with holding := [(0x40000000, 1)] }
    Issues s 0 .always v ∧ v.task.storeError = none ∧ v.core.stores = [] ∧ (rd v 5).getLsbD 31 = false ∧
    Tab.get? s.poolTab 0 = some pool0 ∧ pool0.slice = v.task.slice ∧ v.task.holding.length < 256 ∧ pool0.quota = 0 ∧
    1 < pool0.count ∧ Tab.get? pool0.used 1 = none ∧ (∀ j ∈ List.range 1, Tab.get? pool0.used j ≠ none) ∧
    bufferAt s v.task.slice (rd v 5).toNat = some (0, pool0, 0) ∧ Tab.get? pool0.used 0 = some (1, 0xFFFF) ∧
    v.task.holding.all (fun e => decide (e.1 ≠ (rd v 5).toNat)) = true ∧ viewFw v = false ∧ 1 ≠ 65535 ∧
    Issues (pooled held) 0 .always (viewOf held) ∧
    held.holding.any (fun e => decide (e.1 = 0x40000000)) = true := by
  refine ⟨issues_pooled _ rfl rfl rfl, ?_, ?_, ?_, ?_, ?_, ?_, ?_, ?_, ?_, ?_, ?_, ?_, ?_, ?_, ?_, issues_pooled _ rfl rfl rfl, ?_⟩
  all_goals decide

/-- Index 0 is in use, so a free index is another one. -/
theorem freeTaskIndex_ne (k : Task) : freeTaskIndex (pooled k) ≠ 0 := by
  have h : ∀ i n, 0 < i → Tab.lowestFree [(0, k)] i (n + 1) = some i := by
    intro i n hi
    have : Tab.has [(0, k)] i = false := by
      show (Tab.get? [(0, k)] i).isSome = false
      simp [Tab.get?, Nat.ne_of_lt hi]
    simp [Tab.lowestFree, this]
  show ((Tab.lowestFree [(0, k)] (freeNat (pooled k) % 16384) (16384 - freeNat (pooled k) % 16384)).or _).getD 0 ≠ 0
  generalize hi : freeNat (pooled k) % 16384 = i
  have hl : i < 16384 := by omega
  obtain ⟨m, hm⟩ : ∃ m, 16384 - i = m + 1 := ⟨16384 - i - 1, by omega⟩
  rw [hm]
  cases i with
  | zero =>
    have : m = 16382 + 1 := by omega
    subst this
    have h0 : Tab.lowestFree [(0, k)] 0 (16382 + 1 + 1) = some 1 := by
      rw [Tab.lowestFree]
      have : Tab.has [(0, k)] 0 = true := rfl
      rw [if_pos this]
      exact h 1 _ Nat.zero_lt_one
    rw [h0]
    simp
  | succ i => rw [h _ _ (Nat.succ_pos i)]; simp

theorem witness_DatumTaskAndPoolPorts_spawn :
    let k := poolTask
    let s := pooled k
    k.spawnLog.length ≤ k.spawns ∧ k.ports.spCtl = 0 ∧ Tab.get? s.progs (k.ports.spSlot.toNat % 1024) = some prog0 ∧
    prog0.closing = false ∧ prog0.slice = k.slice ∧ k.ports.spBudget.toNat + 1 ≤ k.steps.toNat ∧
    taskAvailable s k.slice = true ∧ freeTaskIndex s ≠ (viewOf k).t := by
  refine ⟨by decide, rfl, rfl, rfl, rfl, by decide, by decide, freeTaskIndex_ne _⟩

theorem freePoolNo_some (s : State) (h : s.poolTab = []) : ∃ n, freePoolNo s = some n := by
  unfold freePoolNo
  rw [h]
  generalize hi : freeNat s % 64 = i
  obtain ⟨m, hm⟩ : ∃ m, 64 - i = m + 1 := ⟨64 - i - 1, by omega⟩
  refine ⟨i, ?_⟩
  show (Tab.lowestFree [] i (64 - i)).or _ = _
  rw [hm]
  rfl

theorem witness_DatumTaskAndPoolPorts_pools :
    let s : State := { pooled poolTask with poolTab := [] }
    let cfg := poolTask.ports.plCfg.toNat
    let lg := cfg / 2 ^ 21 % 32
    let count := cfg % 2 ^ 21 + 1
    (∃ n, freePoolNo s = some n) ∧ 12 ≤ lg ∧ lg ≤ 21 ∧ count ≤ 2 ^ 20 ∧
    dramRoom s poolTask.slice (mibOf (count * 2 ^ lg)) = true ∧
    poolPlace s poolTask.slice (2 ^ lg) (count * 2 ^ lg) = some 0x40000000 ∧
    (let p : Pool := { pool0 with used := [] }
     let t : State := { pooled poolTask with poolTab := [(0, p)] }
     Tab.get? t.poolTab ((rd (viewOf poolTask) 5).toNat % 64) = some p ∧ p.slice = poolTask.slice ∧ p.used = [] ∧
     stagedOn t p = false) := by
  refine ⟨freePoolNo_some _ rfl, ?_⟩
  decide

/-- A ready firmware task with a deadline that waited for a flag and last ran on core 0. -/
def readyTask : Task :=
  { fwTask with phase := .ready, deadline := some 5000, lastCore := some 0, waitReg := some 7, mask := 1, flags := 1 }

def readyState : State :=
  { st0 with tasks := [(16383, readyTask)], regions := [(0, { powered := true })] }

theorem witness_SchedulingAndReleases_dispatch :
    let s := readyState
    chooseTask s 0 = some (16383, readyTask) ∧ (16383, readyTask) ∈ readyTasks s 0 ∧ readyTask.fw = true ∧
    readyTask.deadline = some 5000 ∧ coreFor s 0 readyTask = some 0 ∧ readyTask.lastCore = some 0 ∧ 0 / 32 = 0 ∧
    (coreOf s 0).run = none ∧ coreUsable s 0 = true ∧ domainOn s 0 (0 % 32) = true ∧ coreAllowed s 0 readyTask = true ∧ isLit s 0 = true ∧
    taskOf s 16383 = some readyTask ∧ Tab.has s.contexts (savedKey 16383) = false ∧ readyTask.waitReg = some 7 ∧
    chooseTask st0 7 = none ∧ isLit { st0 with regions := [(7, { state := .umbra })] } 7 = false := by decide

/-- A task that has ended in flow 7, and one whose release is under way as the root of invocation 9. -/
def endedTask : Task := { prTask with phase := .ended, endStatus := 63 }

def rootTask : Task :=
  { prTask with phase := .releasing, endStatus := 63, effects := [.result [1]], inv := some 9, root := true, slot := 3 }

def inv0 : Invocation :=
  { h := io, slice := 0, slot := 3, block := [], flow := none, inKind := 0, outKind := 1, consume := false, inLen := 0,
    resMax := 16, inNsid := 0, inSlba := 0, inNlb := 0, outNsid := 1, outSlba := 0, outNlb := 63, bufs := [],
    handle := 9, area := [], input := [] }

/-- A power state that allows no core, and a region whose cores are all taken. -/
theorem witness_SchedulingAndReleases_limits :
    let off : State := { readyState with supply := { readyState.supply with ps := 4 } }
    let full : State := { onCore prTask with
      tasks := [(0, prTask), (1, { readyTask with region := 0 })]
      cores := (0, { run := some 0 }) :: (List.range 31).map fun i => (i + 1, { run := some 2 }) }
    chooseTask off 0 = some (16383, readyTask) ∧ coreAllowed off 0 readyTask = false ∧
    running full 0 = some (viewOf prTask) ∧ coreOfTask full 0 = some 0 ∧ prTask.deadline = none ∧
    (1, { readyTask with region := 0 }) ∈ readyTasks full (regionOf 0) ∧ readyTask.deadline = some 5000 ∧
    idleCoreList full (regionOf 0) = [] ∧ namedRangeSealed st0 inv0 = false ∧ rootTask.inv = some 9 := by
  repeat' apply And.intro
  all_goals first | decide | rfl

theorem witness_SchedulingAndReleases_preempt :
    let other : Task := { prTask with phase := .ready, slice := 1 }
    let s : State := { onCore prTask with tasks := [(0, prTask), (1, other)], datum := 100000 }
    running s 0 = some (viewOf prTask) ∧ coreOfTask s 0 = some 0 ∧ (viewOf prTask).core.stores = [] ∧
    prTask.deadline = none ∧ (1, other) ∈ readyTasks s (regionOf 0) ∧ other.slice ≠ prTask.slice ∧
    prTask.runSince + 100000 ≤ s.datum ∧
    running (onCore { fwTask with deadline := some 5 }) 0 = some (viewOf { fwTask with deadline := some 5 }) ∧
    readyTasks (onCore prTask) (regionOf 0) = [] := by
  refine ⟨rfl, ?_, ?_, ?_, ?_, ?_, ?_, rfl, ?_⟩ <;> decide

theorem witness_SchedulingAndReleases_migrate :
    let s : State := { readyState with tasks := [(0, { readyTask with readySince := 0 })], datum := 50000 }
    let busy : Task := { readyTask with tickets := [(6, { state := .busy })] }
    let dim : State := { readyState with regions := [(0, { state := .penumbra })] }
    taskOf s 0 = some { readyTask with readySince := 0 } ∧ opBusy readyTask = false ∧
    (∀ e ∈ s.contexts, e.2.owner ≠ .task 0) ∧ readyTask.phase = .ready ∧ 0 + 50000 ≤ s.datum ∧
    idleRegion s 0 = some 1 ∧ prTask.phase ≠ .ready ∧ (region dim readyTask.region).state = .penumbra ∧
    readyTask.phase ≠ .running ∧ (region s 0).state ≠ .penumbra ∧ opBusy busy = true := by decide

theorem witness_SchedulingAndReleases_release :
    let s : State := { st0 with
      tasks := [(5, rootTask)], invs := [(9, inv0)]
      results := [(9, { gen := 0, slice := 0, mib := 1, ready := false, bytes := [] })] }
    let f : State := { st0 with flows := [(7, { slice := 0, issue := 2, turn := 1 })] }
    let w : WriteOp := { oneWrite with granules := [], task := some 5 }
    endedTask.phase = .ended ∧ endedTask.endStatus < 0x40 ∧ endedTask.flow = none ∧ endedTask.effects.filter isLbaOut = [] ∧ endedTask.inv = none ∧
    Tab.get? f.flows 7 = some { slice := 0, issue := 2, turn := 1 } ∧ (1#32).toNat ≠ 2 ∧ prTask.phase ≠ .ended ∧
    s.tasks = [(5, rootTask)] ∧ rootTask.phase = .releasing ∧ rootTask.flow = none ∧ s.writes = [] ∧
    s.waitingInvokes = [] ∧ s.turns = [] ∧ Tab.get? s.progs rootTask.slot = none ∧ (∀ e ∈ s.slices, e.2.state ≠ .destroying) ∧
    rootTask.inv = some 9 ∧ rootTask.root = true ∧ rootTask.endStatus < 0x40 ∧ rootTask.effects = [.result [1]] ∧
    Tab.get? s.invs 9 = some inv0 ∧ inv0.consume = false ∧ inv0.failStatus = none ∧ inv0.failures = 0 ∧
    Tab.get? s.results (inv0.handle % 65536) = some { gen := 0, slice := 0, mib := 1, ready := false, bytes := [] } ∧
    w ∈ ({ st0 with writes := [w] } : State).writes ∧ w.task = some 5 := by decide

/-- A pattern set, and a device that holds it as set 1023. -/
def set0 : PatternSet := { slice := 0, image := [7], mib := 0 }

theorem witness_ProgramsAndPatternSets :
    let rest := fun d : Cdw => d.d12 = 0 ∧ d.d13 = 0 ∧ d.d14 = 0 ∧ d.d15 = 0
    let load : Cdw := { d10 := 132 }
    let sets : Cdw := { d10 := 336, d11 := 0xFFFF }
    let gone : Cdw := { d11 := BitVec.ofNat 32 (65536 + 1023) }
    let s : State := { st0 with progs := [(1023, prog0)], sets := [(1023, set0)], dram := { filledMib := 1 } }
    let used : State := { s with tasks := [(0, { prTask with slot := 1023 })] }
    load.d10.toNat % 4 = 0 ∧ 132 ≤ load.d10.toNat ∧ load.d10.toNat ≤ 33554432 ∧ load.d11 = 0 ∧ rest load ∧
    Tab.lowestFree s.progs 0 1024 = some 0 ∧ slotsHeld s 0 < slotShare s 0 ∧
    dramRoom s 0 (mibOf (imgCode (fit 132 []) + imgData (fit 132 []))) = true ∧ 128 < 132 ∧
    Tab.lowestFree [(0, prog0)] 0 1 = none ∧ 1023 < 1024 ∧ Tab.get? s.progs 1023 = some prog0 ∧ prog0.slice = 0 ∧
    prog0.closing = false ∧ (∃ p ∈ used.tasks, p.2.slot = 1023) ∧ (∀ p ∈ s.tasks, p.2.slot ≠ 1023) ∧
    s.waitingInvokes = [] ∧ ({ prog0 with slice := 1 } : ProgSlot).slice ≠ 0 ∧ Tab.get? s.progs 0 = none ∧
    sets.d11 = 0xFFFF#32 ∧ rest sets ∧ sets.d10.toNat % 4 = 0 ∧ 336 ≤ sets.d10.toNat ∧ sets.d10.toNat ≤ 1048640 ∧
    setsHeld s 0 < 16 ∧ Tab.lowestFree s.sets 0 1024 = some 0 ∧ dramRoom s 0 (mibOf (psLen [])) = true ∧
    rest gone ∧ gone.d10 = 0 ∧ Tab.get? s.sets 1023 = some set0 ∧ set0.slice = 0 ∧ s.oldSets = [] ∧
    setInUse s set0.image = false ∧ Tab.get? s.sets 0 = none ∧ 39 < 40 ∧ Tab.has s.sets 1023 = true ∧
    setInUse { s with tasks := [(0, { prTask with tickets := [(6, { state := .busy, image := [7] })] })] } set0.image = true ∧
    resident s 39 set0.image = false ∧ setBytes set0.image ≤ 1048576 ∧
    resident { s with filters := [(39, [set0.image])] } 39 set0.image = true := by decide

/-- All 1,024 program slots taken. -/
theorem witness_ProgramsAndPatternSets_full : ∃ t : Tab ProgSlot, Tab.lowestFree t 0 1024 = none := by
  have hk : ∀ m i (p : ProgSlot), i < m → Tab.has ((List.range m).map fun k => (k, p)) i = true := by
    intro m i p hi
    have h : ∀ l : List Nat, i ∈ l → Tab.has (l.map fun k => (k, p)) i = true := by
      intro l
      induction l with
      | nil => intro h; cases h
      | cons a l ih =>
        intro h
        show (Tab.get? ((a, p) :: l.map fun k => (k, p)) i).isSome = true
        by_cases ha : a = i
        · simp [Tab.get?, ha]
        · have : i ∈ l := by
            cases h with
            | head => exact absurd rfl ha
            | tail _ h => exact h
          simpa [Tab.get?, ha, Tab.has] using ih this
    exact h _ (List.mem_range.mpr hi)
  have hl : ∀ m n i, i + n ≤ m → Tab.lowestFree ((List.range m).map fun k => (k, prog0)) i n = none := by
    intro m n
    induction n with
    | zero => intros; rfl
    | succ n ih =>
      intro i h
      rw [Tab.lowestFree, if_pos (hk m i prog0 (by omega))]
      exact ih (i + 1) (by omega)
  exact ⟨(List.range 1024).map fun k => (k, prog0), hl 1024 1024 0 (Nat.le_refl _)⟩

/-- A parameter block for slot 3, and what it says. -/
def invokeData : List Byte := [3]

theorem witness_InvokesAndServices_invoke :
    let d : Cdw := { d10 := 128 }
    let b := fit d.d10.toNat invokeData
    let p := readBlock128 b
    let s := pooled prTask
    let none_ := readBlock128 (fit 128 [4])
    forerunner s (actSlice s io) = false ∧ (d.d11 = 0 ∧ d.d12 = 0 ∧ d.d13 = 0 ∧ d.d14 = 0 ∧ d.d15 = 0) ∧
    128 ≤ d.d10.toNat ∧ blockOk false b p = true ∧ p.slot < 1024 ∧ p.flowed = false ∧ p.inKind < 2 ∧
    invokeRefusal s io (actSlice s io) p (d.d10.toNat - 128) = none ∧ Tab.get? s.progs p.slot = some prog0 ∧
    s.waitingInvokes = [] ∧ taskAvailable s (actSlice s io) = true ∧ (63#32).toNat < 64 ∧
    blockOk false (fit 128 [0, 4]) (readBlock128 (fit 128 [0, 4])) = false ∧
    blockOk false (fit 128 [4]) none_ = true ∧
    invokeRefusal s io (actSlice s io) none_ 0 = some (sVendor 0x8D) ∧ Tab.get? s.progs none_.slot = none := by decide

/-- A task in service `n`: its registers, its invocation and the cause the handler sees. -/
def serviceTask (w1 w2 w3 : Word) : Task :=
  { prTask with
    inv := some 9, holding := [(0x8000, 1)]
    regs := (((Vector.replicate 32 (0 : Word)).set 1 w1).set 2 w2).set 3 w3 }

def serviceCore (n : Nat) : Core := { run := some 0, trapped := true, tcause := BitVec.ofNat 32 (n * 256 + 0x0D) }

def inServiceState (n : Nat) (k : Task) (x : Invocation) : State :=
  { st0 with tasks := [(0, k)], cores := [(0, serviceCore n)], domains := [(0, .on)], invs := [(9, x)] }

theorem witness_InvokesAndServices_services :
    let k := serviceTask 0x8000 16 63
    let s := fun n x => inServiceState n k x
    let lba : Invocation := { inv0 with outKind := 2 }
    (inService (s 1 inv0) 0 1 = some { c := 0, t := 0, task := k, core := serviceCore 1 } ∧
     inService (s 2 inv0) 0 2 = some { c := 0, t := 0, task := k, core := serviceCore 2 } ∧
     inService (s 3 lba) 0 3 = some { c := 0, t := 0, task := k, core := serviceCore 3 }) ∧
    k.inv = some 9 ∧ Tab.get? (s 1 inv0).invs 9 = some inv0 ∧ resultTotal (s 1 inv0) 9 inv0 + (k.regs[2]).toNat ≤ inv0.resMax ∧
    rangeOk (s 1 inv0) 0 k (k.regs[1]).toNat 16 false = true ∧ rangeLost (s 1 inv0) 0 k (k.regs[1]).toNat 16 = false ∧
    ({ inv0 with resMax := 15 } : Invocation).resMax < 16 ∧ invOf (s 2 inv0) k = some inv0 ∧ inv0.outKind = 1 ∧
    ((k.regs[1]).toNat, 1) ∈ k.holding ∧ 1 ≤ 1 ∧
    (accountOf (s 2 inv0) k.slice).length + stagedHandOuts (s 2 inv0) k.slice < 4096 ∧
    (∀ e ∈ prTask.holding, e.1 ≠ 0x8000) ∧ lba.outKind ≠ 1 ∧ invOf (s 3 lba) k = some lba ∧
    nsOf (s 3 lba) lba.outNsid = some ns0 ∧ lba.outKind = 2 ∧
    (let j := serviceTask 0x8000 63 1
     0 < (j.regs[3]).toNat ∧ (j.regs[2]).toNat + (j.regs[3]).toNat ≤ lba.outNlb + 1 ∧ 1 * blockBytes ns0 ≤ 4194304 ∧
     rangeOk (s 3 lba) 0 j (j.regs[1]).toNat (1 * blockBytes ns0) false = true) ∧
    lba.outNlb + 1 < (k.regs[2]).toNat + (k.regs[3]).toNat := by
  refine ⟨⟨rfl, rfl, rfl⟩, ?_⟩
  decide

theorem witness_InvokesAndServices_lost (k : Task) (a n : Nat) :
    rangeLost (inServiceState 3 k inv0) 0 k a n = false := by
  unfold rangeLost
  rw [List.any_eq_false]
  intro i _
  have : peekLost (inServiceState 3 k inv0) 0 k (a + i) = false := by
    unfold peekLost
    cases place (inServiceState 3 k inv0) 0 k (a + i) <;> rfl
  rw [this]
  decide

theorem rangeLost_false (s : State) (h : s.dram.badCompute = [] ∧ s.dram.lostMembers = []) (t : Nat) (k : Task) (a n : Nat) :
    rangeLost s t k a n = false := by
  unfold rangeLost
  rw [List.any_eq_false]
  intro i _
  have hb : ∀ sp off, burstLost s sp off = false := by
    intro sp off; unfold burstLost memberLost; rw [h.1, h.2]; rfl
  have : peekLost s t k (a + i) = false := by
    unfold peekLost
    cases place s t k (a + i) with
    | none => rfl
    | some p => exact hb _ _
  rw [this]
  decide

theorem lowestFree_nil {α : Type} (i n : Nat) (h : i < n) (o : Option Nat) :
    (Tab.lowestFree ([] : Tab α) i (n - i)).or o = some i := by
  obtain ⟨m, hm⟩ : ∃ m, n - i = m + 1 := ⟨n - i - 1, by omega⟩
  rw [hm]; rfl

/-- A task with its operations set up: a copy and a compression within its scratch, and a scan of an LBA input. -/
def engineTask (len : Nat) : Task :=
  { prTask with
    inv := some 9
    ports := { dmaSrc := 0x8000, dmaDst := 0xBFFF, dmaLen := BitVec.ofNat 32 len, cpSrc := 0x8000, cpSrcLen := 1,
               cpDst := 0xBFFF, cpDstLen := 1, cpCtl := 0x19000000#32, fsNblk := 64, fsDst := 0x8000, fsDstLen := 16,
               fsPset := 1023 } }

/-- The state it runs in, with a pattern set and an LBA input. -/
def engines (k : Task) : State :=
  { onCore k with sets := [(1023, set0)], invs := [(9, { inv0 with inKind := 2, inNsid := 1, inLen := 32768 })] }

theorem issues_engines (k : Task) (he : k.exhausted = false) (hpc : k.pc = 0) :
    Issues (engines k) 0 .always (viewOf k) := by
  refine ⟨rfl, .inr he, ?_, rfl⟩
  show k.pc.toNat < 2 ^ 24
  rw [hpc]; decide

theorem witness_EnginesAndScans_start :
    let k := engineTask 1
    let v := viewOf k
    let s := engines k
    let q := v.task.ports
    let full : Task := { k with tickets := [(0, { state := .busy }), (1, { state := .busy }), (2, { state := .busy }), (3, { state := .busy })] }
    Issues s 0 .always v ∧ v.task.storeError = none ∧ (ticketOf k 0).state = .idle ∧ q.dmaCtl.toNat / 2 ^ 30 = 0 ∧
    0 < q.dmaLen.toNat ∧ q.dmaLen.toNat ≤ 16777216 ∧ rangeOk s 0 k q.dmaSrc.toNat q.dmaLen.toNat false = true ∧
    rangeOk s 0 k q.dmaDst.toNat q.dmaLen.toNat true = true ∧ (engineTask 0).ports.dmaLen = 0 ∧
    lbaInput (onCore prTask) prTask = none ∧ ({ dmaCtl := 0x40000000 } : PortRegs).dmaCtl.toNat / 2 ^ 30 = 1 ∧
    (∀ j ∈ List.range 4, (ticketOf full j).state ≠ .idle) ∧ (ticketOf k (4 + 0)).state = .idle ∧
    q.cpCtl.toNat / 2 ^ 28 < 4 ∧ (q.cpCtl.toNat / 2 ^ 24 % 16 = 9) ∧ 1 ≤ q.cpSrcLen.toNat ∧
    q.cpSrcLen.toNat ≤ 16777216 ∧ 1 ≤ q.cpDstLen.toNat ∧ q.cpDstLen.toNat ≤ 16777216 ∧
    rangeOk s 0 k q.cpSrc.toNat q.cpSrcLen.toNat false = true ∧ rangeOk s 0 k q.cpDst.toNat q.cpDstLen.toNat true = true ∧
    4 ≤ ({ cpCtl := 0x40000000 } : PortRegs).cpCtl.toNat / 2 ^ 28 ∧ (ticketOf k 6).state = .idle ∧
    (∃ x n, lbaInput s k = some (x, n) ∧ q.fsOff.toNat + q.fsNblk.toNat ≤ ceilDiv x.inLen (blockBytes n)) ∧
    q.fsNblk.toNat ≠ 0 ∧ q.fsDstLen.toNat % 16 = 0 ∧ setFor s k.slice (q.fsPset.toNat % 65536) = some set0 ∧
    rangeOk s 0 k q.fsDst.toNat q.fsDstLen.toNat true = true ∧ prTask.ports.fsNblk = 0 ∧
    (ticketOf full 3).state = .busy ∧ (ticketOf full 3).discard = false ∧
    (ticketOf { k with tickets := [(3, { state := .done })] } 3).state = .done ∧
    (ticketOf { k with tickets := [(3, { state := .failed })] } 3).state = .failed := by
  refine ⟨issues_engines _ rfl rfl, ?_, ?_, ?_, ?_, ?_, ?_, ?_, ?_, rfl, ?_, ?_, ?_, ?_, ?_, ?_, ?_, ?_, ?_, ?_, ?_, ?_, ?_,
    ⟨_, _, rfl, ?_⟩, ?_⟩
  all_goals decide

/-- Operations under way on the highest tickets: a copy, a compression, and the scan of the last block. -/
def busyTask (discard : Bool) : Task :=
  { engineTask 1 with
    tickets := [(3, { state := .busy, src := 0x8000, dst := 0xBFFF, len := 1, discard := discard }),
                (5, { state := .busy, src := 0x8000, dst := 0xBFFF, len := 1, room := 1, discard := discard }),
                (6, { state := .busy, src := 63, len := 1, flag := 31, discard := discard })] }

theorem witness_EnginesAndScans_complete :
    let k := busyTask false
    let s := engines k
    let x := ticketOf k 3
    let z := ticketOf k 6
    taskOf s 0 = some k ∧ x.state = .busy ∧ x.discard = false ∧ x.lba = false ∧
    rangeLost s 0 k x.src x.len = false ∧ (pokeBytes 0 k x.dst (peekBytes s 0 k x.src x.len) s).2 = false ∧
    (ticketOf (busyTask true) 3).discard = true ∧ (ticketOf prTask 3).state ≠ .busy ∧ (ticketOf k (4 + 1)).state = .busy ∧
    (ticketOf k (4 + 1)).op % 2 = 0 ∧ z.state = .busy ∧ s.oldSets = [] ∧
    (∃ v n, lbaInput s k = some (v, n) ∧ rangeWaits s n (v.inSlba + z.src) z.len = false ∧
      filtersReady s z.image v.inNsid n (unitsTouched n (v.inSlba + z.src) z.len) = true ∧
      ∀ u ∈ unitsTouched n (v.inSlba + z.src) z.len, unitBad s v.inNsid n u (v.inSlba + z.src) z.len = false) ∧
    z.room = 0 := by
  refine ⟨rfl, ?_, ?_, ?_, rangeLost_false _ ⟨rfl, rfl⟩ _ _ _ _, ?_, ?_, ?_, ?_, ?_, ?_, ?_, ⟨_, _, rfl, ?_⟩, ?_⟩
  all_goals decide

/-- A Scan of the last 8 blocks with set 1023, as its command and as the scan in progress. -/
def scanData : List Byte := toLe 8 56 ++ toLe 8 8 ++ toLe 2 1023

def scan0 (left : List Nat) : ScanOp :=
  { h := io, slice := 0, nsid := 1, slba := 56, nblk := 8, set := 1023, image := [], countOnly := false, resMax := 0,
    flow := none, handle := 65535, left := left, failed := [], glints := [] }

theorem witness_EnginesAndScans_scans :
    let b := fit 64 scanData
    let s : State := { st0 with sets := [(1023, set0)], dram := { filledMib := 1 } }
    let far := fit 64 (toLe 8 57 ++ toLe 8 8 ++ toLe 2 1023)
    scanFieldsOk s 0 { d10 := 1 } b = false ∧ scanFieldsOk s 0 {} b = true ∧ bit (field b 20 4) 0 = false ∧
    nsOfSlice s io 0 2 = none ∧ nsOfSlice s io 0 1 = some ns0 ∧ scanFieldsOk s 0 {} far = true ∧
    ns0.nsze < field far 0 8 + field far 8 8 ∧ field b 0 8 + field b 8 8 ≤ ns0.nsze ∧
    recordRoom s 0 (mibOf (field b 24 4)) = true ∧ s.waitingInvokes = [] ∧ taskAvailable s 0 = true ∧
    (let q := scan0 [7]
     let t : State := { s with
       scans := [q], results := [(65535, { gen := 0, slice := 0, mib := 0, ready := false, bytes := [] })] }
     t.scans = [q] ∧ q.h = io ∧ nsOf t q.nsid = some ns0 ∧ q.left = 7 :: [] ∧ q.flow = none ∧
     rangeWaits t ns0 (unitPart ns0 7 q.slba q.nblk).1 (unitPart ns0 7 q.slba q.nblk).2 = false ∧
     filterReady t q.image q.nsid ns0 (!q.tail.isEmpty) 7 = true ∧ (scan0 [6, 7]).left = 6 :: [7] ∧ t.tasks = [] ∧ t.waitingInvokes = [] ∧
     t.oldSets = [] ∧
     Tab.get? t.results (q.handle % 65536) = some { gen := 0, slice := 0, mib := 0, ready := false, bytes := [] }) ∧
    (let n : Namespace := { ns0 with map := [(7, { kind := .onNand })] }
     let t : State := { s with namespaces := [(1, n)], scans := [scan0 [7]] }
     nsOf t 1 = some n ∧ filterReady t (scan0 [7]).image 1 n (!(scan0 [7]).tail.isEmpty) 7 = false) ∧
    s.scans = [] := by decide

theorem witness_EnginesAndScans_results :
    let d : Cdw := { d10 := 0x0001FFFF, d11 := 4, d12 := 8, d13 := 1 }
    let r : ResultRecord := { gen := 1, slice := 0, mib := 0, ready := true, bytes := [1, 2, 3, 4] }
    let s : State := { st0 with results := [(65535, r)] }
    d.d11.toNat % 4 = 0 ∧ d.d12.toNat % 4 = 0 ∧ Tab.get? s.results (d.d10.toNat % 65536) = some r ∧
    r.gen = d.d10.toNat / 65536 ∧ r.slice = actSlice s io ∧ r.ready = true ∧ d.d13 = 1 ∧ ({} : Cdw).d13 = 0 ∧
    ({ r with ready := false } : ResultRecord).ready = false ∧ Tab.get? st0.results 65535 = none ∧
    taskOf (engines prTask) 0 = some prTask := by decide

/-! ### Key arrays, digests, slices -/

/-- A table of one segment with the given entries. -/
def table0 (l : Tab KeyEntry) : KeyTable := { slice := 0, width := 1, segs := [{ bank := 0, seg := 0, mirror := none }], mirror := false, entries := l }

def entry0 : KeyEntry := { value := 5, mask := 7, prio := 1, dat := 9 }

def withTable (t : KeyTable) : State :=
  { st0 with tables := [(511, t)], regions := [(0, { powered := true })], domains := [(40, .on)] }

/-- A batch of one item for table 511, in `n` bytes. -/
def batch (n : Nat) : List Byte := fit n [255, 1, 1, 0]

theorem freeTableNo_some (s : State) (h : s.tables = []) : ∃ n, freeTableNo s = some n := by
  refine ⟨freeNat s % 512, ?_⟩
  show (Tab.lowestFree s.tables _ _).or _ = _
  rw [h]
  exact lowestFree_nil _ _ (Nat.mod_lt _ (by decide)) _

theorem witness_KeyArrays_configure :
    let b := fit 64 [1, 1, 0, 0, 1]
    let big := fit 64 [1, 1, 0, 0, 1, 2]
    let op := fit 64 [2, 0, 255, 1]
    let short : State := { st0 with slices := [(1, { state := .active, kaUnits := 512 })] }
    (∃ n, freeTableNo st0 = some n) ∧ (∃ n, freeTableNo short = some n) ∧ field b 0 1 = 1 ∧ createValid st0 b = true ∧
    (sliceOf st0 0).kaUsed + 1 ≤ kaAllot st0 0 ∧
    (∃ gs, placeSegments st0 1 (bit (field b 6 1) 0) (bit (field b 6 1) 1) (field b 7 1) (field b 4 2) 0
      (takenPlaces st0) = some gs) ∧
    createValid short b = true ∧ kaAllot short 0 < (sliceOf short 0).kaUsed + 1 ∧ field big 0 1 = 1 ∧
    createValid st0 big = false ∧ tableOpValid op = true ∧ field op 2 2 = 511 ∧ field op 0 1 = 2 ∧
    field (fit 64 [3, 0, 255, 1]) 0 1 = 3 ∧
    Tab.get? (withTable (table0 [])).tables 511 = some (table0 []) ∧ (table0 []).slice = 0 ∧ (table0 []).jobs = [] ∧
    ({ table0 [] with slice := 1 } : KeyTable).slice ≠ 0 := by
  refine ⟨freeTableNo_some _ rfl, freeTableNo_some _ rfl, by decide, by decide, by decide, ⟨_, rfl⟩, ?_⟩
  decide

theorem witness_KeyArrays_batches :
    let t := table0 [(1023, { value := 0, mask := 0, prio := 0, dat := 7 })]
    let s := withTable t
    let none_ : KeyTable := { table0 [] with segs := [] }
    let i := slice (batch 72) 16 56
    let j := slice (batch 64) 16 48
    batchTable s 0 { d10 := 72 } (batch 72) (fun w => 40 * w + 16) = some (511, t) ∧
    batchItems (batch 72) (40 * t.width + 16) = [i] ∧ itemValid t.width i = true ∧ t.jobs = [] ∧ t.move = none ∧
    (∃ t', insertEntry s t (itemEntry t.width i) = .placed t' ∧ t'.jobs = [] ∧ t'.move = none) ∧
    batchTable (withTable none_) 0 { d10 := 72 } (batch 72) (fun w => 40 * w + 16) = some (511, none_) ∧
    insertEntry (withTable none_) none_ (itemEntry none_.width i) = .full ∧
    batchTable s 0 { d10 := 64 } (batch 64) (fun w => 40 * w + 8) = some (511, t) ∧
    batchItems (batch 64) (40 * t.width + 8) = [j] ∧ itemValid t.width j = true ∧
    batchTable s 0 {} (batch 72) (fun w => 40 * w + 16) = none ∧ batchTable s 0 {} (batch 64) (fun w => 40 * w + 8) = none ∧
    batchTable s 0 { d10 := 36 } (batch 36) (fun w => 20 * w) = some (511, t) ∧
    16 * field (batch 36) 2 2 ≤ (16#32).toNat ∧ batchTable s 0 {} (batch 36) (fun w => 20 * w) = none := by
  refine ⟨by decide, by decide, by decide, by decide, by decide, ⟨_, rfl, rfl, rfl⟩, by decide, rfl, ?_⟩
  decide

theorem witness_KeyArrays_movers :
    let run := (List.range 16).map fun i => (i, entry0)
    let full := table0 run
    let moving : KeyTable := { table0 [] with move := some { entry := entry0, place := 17, hole := 3 } }
    Tab.get? (withTable moving).tables 511 = some moving ∧
    moving.move = some { entry := entry0, place := 17, hole := 3 } ∧ moving.jobs = [] ∧
    Tab.get? (withTable full).tables 511 = some full ∧ full.move = none ∧ runFull full = true ∧
    tableMissing (withTable full) full = false ∧ 16 * full.entries.length ≤ 15 * tableCap full ∧
    (∀ g ∈ full.segs, segPresent (withTable full) full g = true) ∧ (∀ e ∈ full.entries, segOf e.1 < full.segs.length) ∧
    (search (withTable full) full 0xD none).hit = true := by decide

/-- A corrupt row in a bank that is present, and a lookup that it wins. -/
theorem witness_KeyArrays_upsets :
    let t := table0 [(1023, { value := 0, mask := 0, prio := 0, dat := 7 })]
    let s := withTable t
    let u : KeyUpset := { table := 511, pos := 1023, value := 0, mask := 0, shadowBad := false }
    let t1 : KeyTable := { t with upset := [(u.pos, (u.value, u.mask))] }
    bankPresent st0 0 = false ∧ s.tables = [(511, t)] ∧ t.jobs = [] ∧ t.upset = [] ∧ t.shadowBad = [] ∧
    bankPresent s (0 : Fin 32).val = true ∧ u.table = 511 ∧ inBank (0 : Fin 32).val t u.pos = true ∧
    (t.entries.map (·.1)).count u.pos = 1 ∧
    batchTable s (actSlice s io) { d10 := 36, d14 := 16 } (batch 36) (fun w => 20 * w) = some (511, t) ∧
    batchItems (batch 36) (20 * t.width) = [slice (batch 36) 16 20] ∧ Tab.has t.entries u.pos = true ∧
    (search s t1 (ofLe (slice (batch 36) 16 20)) none).hit = true ∧
    (search s t1 (ofLe (slice (batch 36) 16 20)) none).index = u.pos := by
  repeat' apply And.intro
  all_goals first | decide | rfl

/-- A task that addresses table 511 through its ports, with its staged changes at the limit or one below. -/
def keyTask (n : Nat) : Task := { prTask with ports := { kaTable := 511 }, keyOps := n }

def withKeys (k : Task) : State := { onCore k with tables := [(511, table0 [])] }

theorem issues_withKeys (n : Nat) : Issues (withKeys (keyTask n)) 0 .always (viewOf (keyTask n)) :=
  ⟨rfl, .inr rfl, by show (0 : Nat) < 2 ^ 24; decide, rfl⟩

theorem witness_KeyArrays_ports :
    Issues (withKeys (keyTask 255)) 0 .always (viewOf (keyTask 255)) ∧
    kaTableOf (viewOf (keyTask 255)) (withKeys (keyTask 255)) = some (511, table0 []) ∧
    (viewOf (keyTask 255)).task.storeError = none ∧ viewFw (viewOf (keyTask 255)) = false ∧ (keyTask 255).keyOps < 256 ∧
    Issues (withKeys (keyTask 256)) 0 .always (viewOf (keyTask 256)) ∧
    kaTableOf (viewOf (keyTask 256)) (withKeys (keyTask 256)) = some (511, table0 []) ∧ 256 ≤ (keyTask 256).keyOps ∧
    kaTableOf (viewOf prTask) (withKeys prTask) = none := by
  refine ⟨issues_withKeys _, ?_, ?_, ?_, ?_, issues_withKeys _, ?_⟩
  all_goals decide

/-- A context of a task, and a task that holds it or not; its scratch begins with a saved image. -/
def ctx0 (owner : CtxOwner) : DigestCtx :=
  { owner := owner, alg := 0, hmac := false, keySlot := 0, hash := { words := [] }, busy := false, finishing := false, used := 0 }

def digestTask (c : Option (Nat × Nat)) : Task :=
  { prTask with ctx := c, ports := { dgCtx := 0x8000, dgLen := 4, dgDest := 5 }, scratch := [(0, 1)] }

def digesting (k : Task) (l : Tab DigestCtx) : State :=
  { onCore k with contexts := l, keys := [(5, { typ := .derived })] }

theorem issues_digesting (c : Option (Nat × Nat)) (l : Tab DigestCtx) :
    Issues (digesting (digestTask c) l) 0 .always (viewOf (digestTask c)) :=
  ⟨rfl, .inr rfl, by show (0 : Nat) < 2 ^ 24; decide, rfl⟩

/-- All contexts of region 0 held by sessions; session 1023 the least recently used. -/
def fullRegion : Tab DigestCtx :=
  (0, ctx0 (.session 1023)) :: ((List.range 7).map fun i => (i + 1, { ctx0 (.session i) with used := 1 }))

theorem witness_DigestAndKeyStore_port :
    let k := digestTask none
    let s := digesting k []
    let h := digestTask (some (0, 7))
    let t := digesting h [(7, ctx0 (.task 0))]
    let partial_ : DigestCtx := { ctx0 (.task 0) with hash := { words := [], buf := [1] } }
    Issues s 0 .always (viewOf k) ∧ Issues t 0 .always (viewOf h) ∧ k.storeError = none ∧ (viewOf k).core.stores = [] ∧
    (3#4).toNat < 4 ∧ k.phase = .running ∧ k.ctx = none ∧ freeContext s k.region = some 0 ∧
    ctxUsed s k.slice < ctxShare s k.slice ∧ h.ctx = some (0, 7) ∧
    freeContext (digesting k fullRegion) k.region = none ∧ ctxOf t h = some (7, ctx0 (.task 0)) ∧
    (ctx0 (.task 0)).finishing = false ∧ (settledHash partial_).buf ≠ [] ∧ (settledHash (ctx0 (.task 0))).buf = [] ∧
    rangeOk t 0 h 0x8000 320 true = true ∧ rangeOk s 0 k 0x8000 320 false = true ∧ rangeLost s 0 k 0x8000 320 = false ∧
    derivedOf s k.slice 5 = true ∧ derivedOf s k.slice 6 = false ∧ (ctx0 (.task 0)).busy = false ∧
    (ctx0 (.task 0)).hash.count + 4 ≤ h.ports.dgLen ∧ ({ ctx0 (.task 0) with busy := true } : DigestCtx).busy = true ∧
    k.ports.dgReady = false ∧ ({ dgReady := true } : PortRegs).dgReady = true := by
  refine ⟨issues_digesting _ _, issues_digesting _ _, ?_, ?_, ?_, ?_, ?_, ?_, ?_, ?_, ?_, ?_, ?_, ?_, ?_, ?_, ?_,
    rangeLost_false _ ⟨rfl, rfl⟩ _ _ _ _, ?_⟩
  all_goals decide

/-- A saved image is well formed: version 1, SHA-256, no HMAC. -/
theorem witness_DigestAndKeyStore_image : imageOk (1 :: zeros 319) = true ∧ field (1 :: zeros 319) 3 1 = 0 := by
  have hz : ∀ m o n, zeroAt (1 :: zeros m) (o + 1) n = true := by
    intro m o n
    unfold zeroAt slice zeros
    rw [List.all_eq_true]
    intro x hx
    have : x ∈ List.replicate m (0 : Byte) := List.mem_of_mem_drop (List.mem_of_mem_take hx)
    rw [(List.mem_replicate.mp this).2]
    rfl
  have h0 : zeros 319 = 0 :: 0 :: 0 :: zeros 316 := rfl
  refine ⟨?_, by rw [h0]; rfl⟩
  unfold imageOk
  rw [hz 319 4 3, hz 319 19 44, hz 319 263 56, h0]
  rfl

/-- A context that has taken its final block, and what becomes of it. -/
theorem witness_DigestAndKeyStore_final :
    let x : DigestCtx := { ctx0 (.task 0) with finishing := true, finEqual := some true, finDest := 5, finFlag := 31 }
    let s := digesting (digestTask (some (0, 7))) [(7, x)]
    Tab.get? s.contexts (8 * (0 : RegionId).val + (7 : Fin 8).val) = some x ∧ x.owner = .task 0 ∧
    taskOf s 0 = some (digestTask (some (0, 7))) ∧ x.finishing = true ∧ x.busy = false ∧ x.hmac = false ∧
    (digestTask (some (0, 7))).ports.dgReady = false ∧ x.finEqual = some true ∧ x.finTokey = false ∧
    ({ x with finEqual := some false } : DigestCtx).finEqual = some false ∧
    ({ x with finTokey := true } : DigestCtx).finTokey = true ∧ bit x.finDest 8 = false := by
  repeat' apply And.intro
  all_goals rfl

theorem witness_DigestAndKeyStore_dest :
    keyDest (digesting (digestTask none) []) 0 (bit 5 8) (5 % 256) = .ok 5 := rfl

/-- A block that waits for the engine behind none, and behind one that arrived before it. -/
theorem witness_DigestAndKeyStore_blocks :
    let x : DigestCtx := { ctx0 (.task 0) with busy := true, used := 5 }
    let s := digesting (digestTask (some (0, 7))) [(7, x)]
    let late := digesting (digestTask (some (0, 7))) [(6, { x with used := 4 }), (7, x)]
    Tab.get? s.contexts (8 * (0 : RegionId).val + (7 : Fin 8).val) = some x ∧ x.busy = true ∧ arrivedBefore s 0 x = false ∧
    x.finishing = false ∧ unitRetired s (digestSite 0) = false ∧
    (s.faults.lanes.all fun e => decide (e.1 ≠ digestSite 0)) = true ∧ (ctx0 (.task 0)).busy = false ∧
    Tab.get? late.contexts 7 = some x ∧ arrivedBefore late 0 x = true := by
  repeat' apply And.intro
  all_goals rfl

/-- A host session in context 7 of region 0. -/
def session0 : DigestSession :=
  { h := io, slice := 0, alg := 0, hmac := false, tokey := false, declared := 1, keySlot := 0, dest := 0,
    hash := { words := [] }, region := 0, ctx := some 7 }

theorem freeSession_some (s : State) (h : s.sessions = []) : ∃ n, freeSession s = some n := by
  refine ⟨freeNat s % 1024, ?_⟩
  show (Tab.lowestFree s.sessions _ _).or _ = _
  rw [h]
  exact lowestFree_nil _ _ (Nat.mod_lt _ (by decide)) _

theorem witness_DigestAndKeyStore_host :
    let s : State := { st0 with dram := { filledMib := 1 } }
    let t : State := { s with sessions := [(1023, session0)], contexts := [(7, ctx0 (.session 1023))] }
    let named : Cdw := { d11 := 1023 }
    let one : Cdw := { d10 := 1, d11 := 1023 }
    (∃ n, freeSession s = some n) ∧ hostContext s 0 = some (0, s) ∧ digestFields {} [] true false = true ∧
    ({} : Cdw).d11.getLsbD 19 = false ∧ ({} : Cdw).d11.getLsbD 18 = false ∧ ([] : List Byte).length = declaredOf {} ∧
    s.sessions.length < 1024 ∧ ctxUsed s 0 < ctxShare s 0 ∧ recordRoom s 0 1 = true ∧
    ([] : List Byte).length ≠ declaredOf { d12 := 1 } ∧ digestFields { d12 := 1 } [] true false = true ∧
    digestFields { d11 := 1 } [] true false = false ∧ digestFields one [7] false true = true ∧
    bits one.d11.toNat 15 0 = 1023 ∧ sessionFor t 0 1023 = some session0 ∧ session0.ctx = some 7 ∧
    session0.hash.count + 1 ≤ session0.declared ∧ session0.declared = session0.hash.count + 1 ∧ recordRoom t 0 1 = true ∧
    ({ session0 with declared := 0 } : DigestSession).declared < session0.hash.count + 1 ∧
    digestFields named [] false true = true ∧ digestFields { d14 := 0x0500 } [] false false = true ∧
    derivedOf { s with keys := [(5, { typ := .derived })] } 0 (bits (0x0500#32).toNat 15 8) = true ∧
    derivedOf { s with keys := [] } 0 (bits (0x0500#32).toNat 15 8) = false := by
  refine ⟨freeSession_some _ rfl, rfl, ?_⟩
  decide

/-- A digest that goes to a free key slot, and a session that has lost its context. -/
theorem witness_DigestAndKeyStore_tokey :
    let d : Cdw := { d11 := 0x00040000, d14 := 0x00010000 }
    let s : State := { st0 with dram := { filledMib := 1 } }
    let q : DigestSession := { session0 with ctx := none }
    let t : State := { s with sessions := [(1023, q)] }
    digestFields d [] true false = true ∧ digestSlots s 0 false 0 true (destOf d) = true ∧
    digestSlots s 0 false 0 false 0 = true ∧ digestSlots s 0 true 0 false 0 = false ∧ d.d11.getLsbD 18 = true ∧
    d.d11.getLsbD 19 = false ∧
    ([] : List Byte).length = declaredOf d ∧ finalRoom s 0 true (destOf d) = true ∧ sessionFor t 0 1023 = some q ∧
    q.ctx = none ∧ ctxUsed t 0 < ctxShare t 0 ∧ (hostContext t q.region).isSome = true := by
  repeat' apply And.intro
  all_goals first | rfl | decide

theorem witness_DigestAndKeyStore_evict :
    let q : DigestSession := { session0 with ctx := some 0 }
    let s : State := { st0 with sessions := [(1023, q)], contexts := fullRegion }
    Tab.get? s.sessions 1023 = some q ∧ q.ctx = some 0 ∧ freeContext s (0 / 8) = none ∧
    lruSession s (· = 0 / 8) = some 1023 ∧ (freeContext { s with contexts := [] } (0 / 8)).isSome = true := by decide

theorem witness_DigestAndKeyStore_keys :
    let s := fun k : KeySlot => ({ onCore fwTask with keys := [(255, k)], fwPorts := { ksSel := 255 } } : State)
    (keyOf (s { typ := .derived }) 255).typ ≠ .free ∧ (keyOf (s { typ := .derived }) 255).durable = false ∧
    (s {}).fwPorts.ksBusy = none ∧ (keyOf (s { typ := .derived }) 255).waitTask = none ∧
    (keyOf (s { typ := .derived }) 255).waitHost = none ∧
    (keyOf (s { typ := .derived, waitHost := some io }) 255).waitHost = some io ∧
    (keyOf (s { typ := .derived, waitTask := some (0, 31) }) 255).waitTask = some (0, 31) ∧
    taskOf (s { typ := .derived, waitTask := some (0, 31) }) 0 = some fwTask ∧
    (keyOf (s { durable := true }) 255).durable = true ∧ (keyOf (s { stale := true }) 255).stale = true ∧
    (keyOf (s {}) 255).stale = false ∧ Issues (s {}) 0 .always (viewOf fwTask) ∧ viewFw (viewOf fwTask) = true ∧
    4 ≤ (s {}).fwPorts.ksSel ∧ (s {}).fwPorts.ksSel < 256 ∧ (256#9).toNat ≤ 256 ∧ (keyOf (s {}) 255).typ = .free ∧
    ({ ksSel := 3 } : FwPorts).ksSel < 4 := by
  refine ⟨by decide, by decide, by decide, by decide, by decide, by decide, by decide, by decide, by decide, by decide,
    by decide, ⟨rfl, .inl rfl, by decide, rfl⟩, ?_⟩
  decide

/-- A slice create of one queue pair and one vector, alone and with compute memory that is not there. -/
def sliceData (dram : Byte) : List Byte :=
  [1, 0, 0, 0, 1, 0, 1, 0, dram, 0, 0, 0, 0, 0, 0, 0, 0, 0, 0, 0, 0, 0, 0, 0, 0, 0, 0, 0, 1, 0]

/-- Slice 256 active, with port PE0 taking process address spaces. -/
def sliced (l : Tab Slice) : State := { withPort { port0 with pasidEnable := true } with slices := l }

theorem witness_TenantSlices_create :
    let b := fit 64 (sliceData 0)
    createFields st0 {} b = false ∧ createFields (sliced []) {} (fit 64 (sliceData 1)) = true ∧
    createFields (sliced []) {} b = true ∧ createFields (sliced []) { d10 := 256 } b = true := by decide

theorem lowestRange_lo (free : Nat → Bool) (n hi lo : Nat) (h : lo + n ≤ hi) (hn : 0 < n)
    (hf : ∀ i, i < n → free (lo + i) = true) : lowestRange free n hi lo = some lo := by
  obtain ⟨m, hm⟩ : ∃ m, hi - lo = m + 1 := ⟨hi - lo - 1, by omega⟩
  unfold lowestRange
  rw [hm, List.range_succ_eq_map, List.map_cons, Nat.zero_add, List.find?_cons_of_pos]
  rw [Bool.and_eq_true, decide_eq_true_eq, List.all_eq_true]
  exact ⟨h, fun i hi => hf i (List.mem_range.mp hi)⟩

/-- A port without I/O queues. -/
def bare : State := withPort { port0 with sqs := [(0, { size := 16 })], cqs := [(0, { size := 16 })] }

/-- The first of the resources that is short, and the numbers of a slice for which none is. -/
theorem witness_TenantSlices_resources :
    createResources bare 256 (fit 64 (sliceData 1)) = .error 4 ∧
    createResources bare 256 (fit 64 (sliceData 0)) = .ok (256, 1, 1) := by
  have hq : lowestRange (qidFree bare 0) 1 16385 1 = some 1 :=
    lowestRange_lo _ _ _ _ (by decide) (by decide) (fun i hi => by
      obtain rfl : i = 0 := by omega
      decide)
  have hv : lowestRange (vectorFree bare 0) 1 2048 1 = some 1 :=
    lowestRange_lo _ _ _ _ (by decide) (by decide) (fun i hi => by
      obtain rfl : i = 0 := by omega
      decide)
  have h : ∀ x, (x = 0 ∨ x = 1) → scQpairs (fit 64 (sliceData x)) = 1 ∧ scVectors (fit 64 (sliceData x)) = 1 ∧
      hostPortNo (scPort (fit 64 (sliceData x))) = 0 := by
    intro x hx
    rcases hx with rfl | rfl <;> decide
  constructor
  · unfold createResources
    dsimp only
    rw [(h 1 (.inr rfl)).2.2, (h 1 (.inr rfl)).1, (h 1 (.inr rfl)).2.1, hq, hv]
    rfl
  · unfold createResources
    dsimp only
    rw [(h 0 (.inl rfl)).2.2, (h 0 (.inl rfl)).1, (h 0 (.inl rfl)).2.1, hq, hv]
    show (if dramFree bare < _ then _ else if capFree bare 0 < _ then _ else if kaFree bare < _ then _
      else if slotsFree bare < _ then _ else if ctxShare bare 0 < _ then _ else if bwFree bare < _ then _ else _) = _
    rw [if_neg (by decide), if_neg (by decide), if_neg (by decide), if_neg (by decide), if_neg (by decide),
      if_neg (by decide)]

theorem witness_TenantSlices_destroy :
    let d : Cdw := { d10 := 256 }
    let s := sliced [(256, { state := .active, qpairs := 1 })]
    let bad := fun (s : State) (d : Cdw) => 256 < d.d10.toNat ∨ d.d10.toNat = 0 ∨ 1 < d.d11.toNat ∨
      { d with d10 := 0, d11 := 0 } ≠ ({} : Cdw) ∨ (sliceOf s d.d10.toNat).state ≠ .active
    let busy : State := { s with namespaces := [(1, { sealing [] [pend1 false] with slice := 256 })] }
    let sealed' : State := { s with namespaces := [(1, { sealedNs with slice := 256 })] }
    bad s { d10 := 257 } ∧ ¬bad s d ∧ sealWaits s (sliceNs s 256) = false ∧ sealWaits sealed' (sliceNs sealed' 256) = false ∧
    sealWaits { busy with turns := [{ h := adm, slice := 256, cmd := .sealing 1 [] }] } (sliceNs busy 256) = true ∧ sealsInProgress busy (sliceNs busy 256) = true ∧
    sealsInProgress sealed' (sliceNs sealed' 256) = false ∧ anySealed sealed' (sliceNs sealed' 256) = true ∧
    sliceNs s 256 = [] ∧ (∀ e ∈ s.slices, e.2.state ≠ .destroying) ∧
    (∀ e ∈ (portOf s (hostPortNo (sliceOf s 256).port)).sqs, e.2.slice ≠ 256) ∧ (∀ e ∈ s.tasks, e.2.slice ≠ 256) ∧
    (∀ e ∈ s.resvs, e.slice ≠ 256) ∧ (∀ e ∈ s.sessions, e.2.slice ≠ 256) ∧ (∀ e ∈ s.tables, e.2.slice ≠ 256) ∧
    (∀ e ∈ s.sets, e.2.slice ≠ 256) ∧ (∀ e ∈ s.keys, e.2.owner ≠ 256) ∧ (∀ e ∈ s.results, e.2.slice ≠ 256) := by decide

theorem witness_TenantSlices_relays :
    let s := sliced [(256, { state := .active, qpairs := 1 })]
    let good := fun d : Cdw => 1 ≤ d.d10.toNat ∧ d.d10.toNat ≤ 256 ∧ d.d11 = 0 ∧ d.d14 = 0 ∧ d.d15 = 0 ∧
      d.d12.toNat % 8 = 0 ∧ (sliceOf s d.d10.toNat).state = .active
    ¬good { d10 := 255 } ∧ good { d10 := 256 } ∧ returnsData (.getFeatures 7 0 0) = true ∧
    returnsData (.setNumberOfQueues 0 0) = false ∧ 65534 < 65535 ∧ 1 % 4 ≠ 2 ∧ 6 % 4 = 2 ∧ 2 < 3 ∧
    ((sqOf s (hostPortNo (sliceOf s 256).port) 1).map (·.slice)) ≠ some 256 ∧ (portOf s 0).present = true ∧
    (portOf s 1).present = false := by decide

theorem witness_TenantSlices_translation :
    let p : FwPorts := { stAttr := 0x52000000 }
    let e : StuEntry := { slice := 0, task := none, va := 0, size := 0, write := false, scratch := false, pa := 0 }
    let s : State := { onCore fwTask with fwPorts := p }
    let t : State := { s with stu := [e] }
    let a := p.stAttr.toNat
    Issues s 0 .always (viewOf fwTask) ∧ viewFw (viewOf fwTask) = true ∧ fwTask.storeError = none ∧
    (viewOf fwTask).core.stores = [] ∧ bits a 31 30 = 1 ∧ bits a 28 24 ≤ 18 ∧ bits a 8 0 = 0 ∧ a.testBit 23 = false ∧
    a.testBit 29 = false ∧ s.stu = [] ∧ e ∈ t.stu ∧ e.slice = 0 ∧ e.va = 0 ∧ bits 0x101 8 0 = 257 ∧
    bits ({} : FwPorts).stAttr.toNat 31 30 = 0 := by
  refine ⟨⟨rfl, .inl rfl, by decide, rfl⟩, ?_⟩
  decide

/-! ### Heat, regions, service, the book, presence, start-up -/

theorem witness_HeatAndSupply_heat :
    let hot : State := { st0 with thermal := { graceStart := some 0, inT1 := true }, datum := 200000000 }
    let rise : State := { st0 with thermal := { inT1 := true, level := 7 }, datum := 2000000 }
    let fall : State := { st0 with thermal := { level := 2 }, datum := 10000000 }
    let stop : State := { st0 with thermal := { t2Blocks := [(31, 0)] }, datum := 10000000 }
    hot.thermal.graceStart = some 0 ∧ hot.thermal.inT1 = true ∧ hot.thermal.level = 0 ∧
    0 + hot.features.grace * 10000000 ≤ hot.datum ∧ rise.thermal.inT1 = true ∧ 1 ≤ rise.thermal.level ∧
    rise.thermal.level < 8 ∧ rise.thermal.levelAt + 2000000 ≤ rise.datum ∧ fall.thermal.inT1 = false ∧
    holdsEight fall = false ∧ 2 ≤ fall.thermal.level ∧ fall.thermal.levelAt + 10000000 ≤ fall.datum ∧
    stop.thermal.t2Blocks.find? (fun x => decide (x.1 = 4 * 7 + 3)) = some (4 * 7 + 3, 0) ∧ 0 + 10000000 ≤ stop.datum ∧
    blockTasks stop (4 * 7 + 3) = [] ∧ st0.vaon = true ∧ st0.startup.waitingHot = false ∧
    (sensorOf { st0 with thermal := { sensors := [(63, { broken := true })] } } 63).broken = true ∧
    (sensorOf st0 65).broken = false ∧ (sensorOf st0 65).nextSample ≤ st0.datum ∧ (sensorOf st0 63).broken = false ∧
    (sensorOf st0 63).nextSample ≤ st0.datum ∧ (sensorOf st0 63).code ≠ 1 ∧ (-220 : Int) ≤ 600 ∧ (sensorOf st0 63).t1.inside = false ∧
    st0.datum < (sensorOf { st0 with thermal := { sensors := [(63, { nextSample := 1001 })] } } 63).nextSample ∧
    (sensorOf { st0 with thermal := { sensors := [(63, { t1 := { inside := true } })] } } 63).t1.inside = true ∧
    (sensorOf st0 63).t2.inside = false ∧
    (sensorOf { st0 with thermal := { sensors := [(63, { t2 := { inside := true } })] } } 63).t2.inside = true ∧
    st0.thermal.checkAt ≤ st0.datum ∧ st0.datum < ({ checkAt := 1001 } : Thermal).checkAt ∧ (∀ m ∈ List.range 68, (sensorOf st0 m).checkFails = 0) := by decide

theorem witness_HeatAndSupply_supply :
    let asleep : State := { withPort { port0 with reqPs := 3 } with supply := { ps := 3, lastOperational := 2 } }
    st0.vaon = true ∧ st0.supply.convertAt ≤ st0.datum ∧ st0.datum < ({ convertAt := 1001 } : Supply).convertAt ∧
    st0.dump.active = false ∧ st0.supply.overvolted = false ∧ 1650 < 1651 ∧
    ({ overvolted := true } : Supply).overvolted = true ∧ st0.supply.ps < 3 ∧ 3 ≤ asleep.supply.ps ∧ asleep.base.running = false ∧ ({ asleep with base := { running := true } } : State).base.running = true ∧
    (∀ e ∈ (setReqPs 0 asleep.supply.lastOperational asleep).ports, e.2.present = true →
      asleep.supply.lastOperational ≤ e.2.reqPs) ∧
    (portOf asleep 0).present = true ∧ asleep.supply.lastOperational < 3 := by decide

theorem witness_RegionLifeCycle :
    let s := fun g : Region => ({ st0 with regions := [(7, g)] } : State)
    let lone := { s { state := .penumbra } with tasks := [(0, { fwTask with region := 7 })] }
    let sick := s { state := .umbra, tested := true }
    let up : State := { s { state := .umbra, relighting := true, powered := true } with
      domains := (List.range 47).map fun i => (329 + i, .on) }
    (region (s {}) 7).state = .lit ∧ 4 ≠ 0 ∧ (s {}).tasks = [] ∧ mayEclipse (s {}) 7 = true ∧
    (region lone 7).state = .penumbra ∧ (∃ e ∈ lone.tasks, e.2.region = 7 ∧ e.2.phase = .running) ∧
    lone.datum < (region lone 7).since + 10000000 ∧ (region lone 7).cause ≠ 1 ∧
    (region (s { state := .penumbra }) 7).state = .penumbra ∧ regionTasks (s { state := .penumbra }) 7 = [] ∧
    (region (s { state := .penumbra }) 7).sensorRetire = false ∧ (region (s { state := .penumbra }) 7).involuntary = [] ∧
    (region (s {}) 7).state ≠ .umbra ∧
    (region sick 7).state = .umbra ∧ poweringCount sick < 8 ∧ (region sick 7).tested = true ∧ (region sick 7).t2 = false ∧
    (region sick 7).relighting = false ∧ (region up 7).relighting = true ∧
    domainsReady up 7 = true ∧ banksReady up 7 = true := by
  repeat' apply And.intro
  all_goals decide

theorem witness_RegionLifeCycle_others : ∀ q, (region st0 q).voluntary = false := fun _ => rfl

theorem witness_RedundantUnitsAndMailbox_units :
    let standby : Faults := { qm := #v[0, 2] }
    let tested : Faults := { qm := #v[1, 0], qmActive := 1 }
    let two : Faults := { sup := #v[0, 0, 2] }
    let back : Faults := { sup := #v[0, 0, 1] }
    st0.faults.qmActive = 0 ∧ st0.faults.qm[1] = 0 ∧ standby.qmActive = 0 ∧ standby.qm[1] ≠ 0 ∧ tested.qm[0] = 1 ∧
    tested.qm[1] = 0 ∧ tested.qmRestoredAt = none ∧ st0.faults.sup = Vector.replicate 3 0 ∧
    st0.faults.supStopped = false ∧ (2 : Fin 3) ≠ 0 ∧ two.sup[(2 : Fin 3)] = 2 ∧ two.sup[(0 : Fin 3)] = 0 ∧
    two.supStopped = false ∧ back.sup[(2 : Fin 3)] = 1 := by decide

theorem witness_RedundantUnitsAndMailbox_mailbox :
    let v := viewOf fwTask
    let dark : State := { onCore fwTask with regions := [(7, { state := .umbra })] }
    let traced : State := { onCore fwTask with fwPorts := { trEn := true } }
    Issues (onCore fwTask) 0 .always v ∧ viewFw v = true ∧ v.task.storeError = none ∧ v.core.stores = [] ∧
    mayEclipse (onCore fwTask) 7 = true ∧
    (∀ e ∈ (onCore fwTask).tasks, e.2.region = 7 → e.2.phase = .running ∨ opBusy e.2 = true) ∧ Issues dark 0 .always v ∧
    mayEclipse dark 7 = false ∧ (region dark 7).state = .umbra ∧ (region (onCore fwTask) 7).state = .lit ∧
    0x30 ≤ (0x39#8).toNat ∧ (0x39#8).toNat ≤ 0x39 ∧ Issues traced 0 .always v ∧ traced.fwPorts.trEn = true ∧
    (onCore fwTask).fwPorts.trEn = false := by
  refine ⟨⟨rfl, .inl rfl, by decide, rfl⟩, rfl, rfl, rfl, by decide, by decide, ⟨rfl, .inl rfl, by decide, rfl⟩, by decide,
    by decide, by decide, by decide, by decide, ⟨rfl, .inl rfl, by decide, rfl⟩, rfl, rfl⟩

theorem witness_OperatingSecondsAndBook :
    let due : State := { st0 with book := { again := some 5 } }
    let under : State := { st0 with book := { flushing := some 1, again := some 4 }, flushImage := some ({}, {}) }
    let opened : State := { st0 with presence := { state := .opened, left := 1 } }
    ({ st0 with startup := {} } : State).startup.done = false ∧ st0.startup.done = true ∧
    st0.dump.poweredDown = false ∧ st0.datum < st0.secAt + 100000000 ∧
    ({ st0 with datum := 100000000 } : State).secAt + 100000000 ≤ 100000000 ∧ isLit st0 7 = true ∧
    ({ st0 with supply := { vinMinSecond := some 1200 } } : State).supply.vinMinSecond = some 1200 ∧
    due.book.flushing = none ∧ due.book.again = some 5 ∧ st0.book.again ≠ some 5 ∧ under.book.flushing = some 1 ∧
    under.flushImage = some ({}, {}) ∧ under.book.again = some 4 ∧
    ({ under with book := { flushing := some 1 } } : State).book.again = none ∧ 1 ≠ 0 ∧
    st0.presence.state ≠ .opened ∧ opened.presence.state = .opened ∧ opened.book.clearArea.length < 4096 := by decide

theorem witness_OperatingSecondsAndBook_sensor :
    tjOf { st0 with thermal := { sensors := [(0, { reading := some 100 })] } } 0 = some 100 := by decide

theorem witness_PhysicalPresence :
    let good := fun (nsid : Nat) (d : Cdw) => nsid = 0 ∧ d.d10.toNat < 4 ∧ { d with d10 := 0 } = ({} : Cdw)
    let s := fun p : Presence => ({ st0 with presence := p } : State)
    let armed : Presence := { state := .armed, deadline := 3000000000 }
    let late : State := { s armed with datum := 3000000000 }
    let held := fun low : Nat => max low (armed.deadline - 3000000000) + 100000000
    let failing : Presence := { mismatches := 1 }
    let mending : Presence := { sealNow := true, matched := 1 }
    ¬good 1 {} ∧ good 0 { d10 := 3 } ∧ (s {}).presence.state ≠ .opened ∧
    (s { state := .opened, left := 1 }).presence.state = .opened ∧ ({} : Presence).serviceLow = false ∧
    ({ serviceLow := true } : Presence).serviceLow = true ∧ armed.state = .armed ∧ held 0 ≤ late.datum ∧
    held 2900000000 ≤ late.datum ∧ held 2900000000 ≤ armed.deadline ∧ (s {}).presence.state ≠ .armed ∧
    (s armed).datum < held 0 ∧ armed.deadline < held 2900000001 ∧
    (s { sealAt := 1001 }).datum < ({ sealAt := 1001 } : Presence).sealAt ∧ ({} : Presence).sealAt ≤ (s {}).datum ∧
    mending.sealNow = true ∧ 1 ≤ mending.matched ∧ mending.sealAt ≤ (s mending).datum ∧
    ({} : Presence).sealNow = false ∧ ({} : Presence).mismatches = 0 ∧ 1 ≤ failing.mismatches ∧ failing.sealNow = false ∧
    true ≠ failing.sealA ∧ true ≠ ({} : Presence).sealA := by
  decide

/-! ### A strap image in the NOR -/

/-- The fields of a strap image copy from byte 16 on: DRAM of width 8, 16 Gb, one rank and 4,800 MT/s, NAND of 400 MT/s. -/
def strapBody : List Byte :=
  fit 1008 (zeros 32 ++ [8, 16, 1, 0] ++ toLe 2 4800 ++ zeros 2 ++ (List.replicate 16 1).flatMap (toLe 2) ++ zeros 40 ++
    toLe 2 400 ++ [1, 0, 0, 0, 31])

/-- A copy with its header and a CRC. -/
def strapWith (c : BitVec 32) : List Byte :=
  toLe 4 0x50534E59 ++ toLe 2 1 ++ toLe 2 1024 ++ toLe 4 7 ++ toLe 4 c.toNat ++ strapBody

def strapBytes : List Byte := strapWith (crc32c strapBody)

theorem strapWith_field (c : BitVec 32) : field (strapWith c) 12 4 = c.toNat := by
  show ofLe (toLe 4 c.toNat) = _
  have := c.isLt
  simp [toLe, ofLe]
  omega

theorem strapWith_body (c : BitVec 32) : ((strapWith c).drop 16).take 1008 = strapBody := by
  show strapBody.take 1008 = strapBody
  exact List.take_of_length_le (by decide +kernel)

theorem strapBytes_valid : strapValid strapBytes = true := by
  unfold strapValid strapBytes
  rw [strapWith_field, strapWith_body]
  generalize crc32c strapBody = c
  rw [decide_eq_true (rfl : c.toNat = c.toNat), Bool.and_true]
  rfl

theorem strapWith_length (c : BitVec 32) : (strapWith c).length = 1024 := by
  have h : strapBody.length = 1008 := by decide +kernel
  simp [strapWith, toLe, h]

/-- The NOR with that copy as copy 0 and nothing else. -/
def strapNor : Memory := Memory.writeBytes [] 0x10000 strapBytes

theorem strapNor_copy1 : strapValid (Memory.readBytes strapNor 0x20000 1024) = false := by
  have z : ∀ m n, (∀ x, 0x20000 ≤ x → Memory.read m x = 0) → strapValid (Memory.readBytes m 0x20000 (n + 4)) = false := by
    intro m n h
    unfold strapValid
    have h0 : field (Memory.readBytes m 0x20000 (n + 4)) 0 4 = 0 := by
      simp [field, Memory.readBytes, ofLe, h]
    simp [h0]
  refine z strapNor 1020 fun x hx => ?_
  rw [strapNor, Memory.read_writeBytes_ge _ _ _ _ (by rw [strapBytes, strapWith_length]; omega)]; rfl

theorem strapUsed_nor (i : StartupInput) (h : i.nor = strapNor) :
    strapUsed i = some (strapFields strapBytes) := by
  have r : Memory.readBytes strapNor 0x10000 1024 = strapBytes := by
    have h : ∀ n, strapBytes.length = n → Memory.readBytes strapNor 0x10000 n = strapBytes := by
      intro n h; subst h; exact Memory.readBytes_writeBytes strapBytes [] 0x10000
    exact h 1024 (strapWith_length _)
  have h0 : strapCopy i 0 = some strapBytes := by
    unfold strapCopy
    rw [h]
    show (if strapValid (Memory.readBytes strapNor 0x10000 1024) = true then _ else _) = _
    rw [r, if_pos strapBytes_valid]
    exact congrArg some r
  have h1 : strapCopy i 1 = none := by
    unfold strapCopy
    rw [h]
    show (if strapValid (Memory.readBytes strapNor 0x20000 1024) = true then _ else _) = _
    rw [strapNor_copy1]; rfl
  unfold strapUsed
  rw [h0, h1]; rfl

theorem witness_StartUpAndVaon :
    let s : State := {}
    let i : StartupInput := { inp0 with bootGoldN := false, nor := strapNor }
    let im : FieldBook × Faults := ({ flushOpsec := 7 }, {})
    let booked : State := { s with bookSlots := [(1, im), (3, im)] }
    let dark : State := { s with vaon := false }
    let waits := fun n : Nat => ({ s with
      startup := { input := some { inp0 with pgFailures := 2 } }, vcore := { enabled := true, pgFails := n } } : State)
    s.vaon = true ∧ dark.vaon = false ∧ s.flushImage = none ∧ i.testMode = false ∧ s.dump.poweredDown = false ∧
    s.startup.done = false ∧ s.startup.stopped = false ∧ s.startup.input = none ∧ st0.startup.done = true ∧
    ({ inp0 with goodSlots := [] } : StartupInput).goodSlots = [] ∧ inp0.bookBad = [] ∧
    booked.bookSlots = [(1, im), (2 + 1, im)] ∧ i.bootGoldN = false ∧ i.goodSlots.contains 1 = true ∧
    i.temps = [] ∧ i.brokenSensors = [] ∧ i.pgFailures = 0 ∧
    s.thermal.sensors = [] ∧ s.slices = [] ∧ 0 < ({ i with pgFailures := 1 } : StartupInput).pgFailures ∧
    (waits 1).startup.input = some { inp0 with pgFailures := 2 } ∧ (waits 1).startup.stopped = false ∧
    (waits 1).startup.done = false ∧ (waits 1).vcore.enabled = true ∧ (waits 1).vcore.pgGood = false ∧
    (waits 1).vcore.pgFails < 2 ∧ (waits 0).vcore.pgFails = 0 ∧ 1 < 2 ∧ 1 ≤ (waits 1).vcore.pgFails := by
  repeat' apply And.intro
  all_goals first | rfl | decide

theorem strapFields_ok : mediaFieldsOk (strapFields strapBytes) = true := by decide +kernel

def strapInput : StartupInput := { inp0 with bootGoldN := false, nor := strapNor }

theorem strapInput_nor : strapInput.nor = strapNor := by simp only [strapInput]

theorem witness_StartUpAndVaon_strap :
    strapUsed strapInput = some (strapFields strapBytes) ∧ mediaFieldsOk (strapFields strapBytes) = true :=
  And.intro (strapUsed_nor strapInput strapInput_nor) strapFields_ok

/-! ### Ill-formed commands are refused, one for each check -/

theorem wf_upTo : (Instr.baselineComputationStart 5).wf = false := by decide
theorem wf_id16 : (Instr.createIoSubmissionQueue adm 1 65536 true 0 1).wf = false := by decide
theorem wf_word32 : (Instr.sqTailDoorbell 0 1 4294967296).wf = false := by decide
theorem wf_lba64 : (Instr.read io 1 18446744073709551616 0).wf = false := by decide
theorem wf_adminCommand : (Instr.abort io 0 1).wf = false := by decide
theorem wf_ioCommand : (Instr.flush adm 1).wf = false := by decide
theorem wf_accessSize : (Instr.registerWrite 0 (.bar 0) 0 2 0).wf = false := by decide
theorem wf_commitAction : (Instr.firmwareCommit adm 3 2).wf = false := by decide
theorem wf_rangesOk : (Instr.datasetManagement io 1 true []).wf = false := by decide
theorem wf_statPort : (Instr.engineStatRead 0 1 0x207).wf = false := by decide
theorem wf_presenceAction : (Instr.presenceArm adm 0 { d10 := 1 }).wf = false := by decide
theorem wf_digestPhase : (Instr.digestWhole io { d11 := 0x20000000 } []).wf = false := by decide
theorem wf_removeBit : (Instr.patternSetLoad adm { d11 := 0x10000 } []).wf = false := by decide
theorem wf_configureOp : (Instr.keyTableCreate adm {} [2]).wf = false := by decide
theorem wf_siteOk : (Instr.sramSweep { kind := 16, index := 0 } .cell 0 0 0 .other).wf = false := by decide

/-- Commands at their bounds are well formed. -/
theorem wf_accepts :
    (Instr.baselineComputationStart 4).wf = true ∧ (Instr.sqTailDoorbell 1 16384 4294967295).wf = true ∧
    (Instr.flush io 0xFFFFFFFF).wf = true ∧ (Instr.presenceArm adm 0 {}).wf = true ∧
    (Instr.keyTableCreate adm {} [1]).wf = true := by decide

/-! ### Single steps, with results from the worked examples of the spec or from its formulas -/

/-- The state after one command. -/
def after (c : Instr) (s : State) : State :=
  match step { s with pending := [c] } with
  | .next t => t
  | _ => s

theorem witness_EveryCommandCompletes : Instr.clockSourceSwitch ≠ .vaonPowerGood ∧ Instr.clockSourceSwitch ≠ .vaonLoss := by decide

/-- No word spells a command. -/
theorem test_decode_none : decodeTableWord 32 0 = none := rfl

/-- The queue is first in, first out. -/
theorem test_front_runs :
    (after .clockSourceSwitch st0).oscillator = true ∧ (after .clockSourceSwitch st0).pending = [] := ⟨rfl, rfl⟩

/-- Core 5.2.7 has number 183, in region 5 (00_scope.md). -/
theorem test_core_number : regionOf 183 = 5 ∧ (183 : CoreId).val = 5 * 32 + 2 * 8 + 7 := by decide

/-- The arbiter of the worked example of 01_regions_handshakes_datum.md, on one of the chip: tick 0. -/
theorem test_arbiter_earliest_deadline :
    let scan : ArbReq := arbReq .bestEffort
    let gc : ArbReq := { arbReq (.refresh 730) with unit := { kind := 9, index := 1 } }
    let w1 : ArbReq := { arbReq (.refresh 430) with unit := { kind := 9, index := 2 } }
    (arbOf (after (.arbiterGrant .chip [scan, gc, w1]) st0) .chip).granted = some w1 := by decide

/-- The same at tick 40: a deadline request goes before best effort, and meets its deadline exactly. -/
theorem test_arbiter_meets_deadline :
    let d1 : ArbReq := { arbReq (.refresh 830) with arrival := 995, unit := { kind := 9, index := 1 } }
    let t := after (.arbiterGrant .chip [arbReq .bestEffort, d1]) { st0 with datum := 2000 }
    (arbOf t .chip).granted = some d1 ∧ t.late = 0 := by decide

/-- Doorbells of queue 300 sit at 0x0012_D000 and 0x0012_D800 (02_host_link_and_queues.md). -/
theorem test_doorbell_address :
    let s := withPort { port0 with sqs := [(300, { size := 8 })], cqs := [(300, { size := 8 })] }
    (Tab.getD (portOf (after (.registerWrite 0 (.bar 0) 0x12D000 4 5) s) 0).sqs 300 {}).tail = 5 := by decide

/-- The tram recorder of 03_write_path_and_reservations.md: stream 25 asks for a bound of 300 µs and is refused with
reason 2 and the floor of 316 µs. -/
theorem test_reserve_refused :
    let s : State := { st0 with base := { baseWbw := 100 }, holdUp := { b := 2080374784, writeThrough := false } }
    let q : ReserveReq :=
      { slice := 0, nsid := 1, sid := 25, cls := 1, bw := 2000, maxw := 262144, burst := 524288, lbound := 300 }
    reserveRefusal s q = some (sVendor 0x8E, 0x0200013C) ∧ reserveRefusal s { q with lbound := 2000 } = none := by decide

/-- The same example: the dip holdback of one camera is 527 KiB. -/
theorem test_dip_holdback : dipHoldback 750 524288 = 527 * 1024 := by decide

/-- The panic-chunk fragment of 08_opxus_instruction_set.md: words as the manual assembles them. -/
theorem test_words :
    encI { neg := false, p := 3 } 0x14 8 1 0x00C = 0x3510100C#32 ∧ encI { neg := false, p := 3 } 0x07 5 8 0x053 = 0x31CA8053#32 ∧
    encI .always 0x08 2 2 0xFFF = 0x02042FFF#32 ∧ encI .always (0x30 + 0) (0 * 8 + 1) 2 0 = 0x0C022000#32 ∧
    encB .always 0x20 0x3FFFF7 = 0x083FFFF7#32 := by decide

/-- `br loop` at 0x0128 goes back nine words, to 0x0104. -/
theorem test_br_target :
    let k : Task := { prTask with pc := 0x128 }
    (taskOf (after (.opBr 0 .always 0x3FFFF7) (onCore k)) 0).map (·.pc) = some 0x104 := by decide

/-- `perm w5, w8, 0x053` reverses the bytes of a word. -/
theorem test_perm_reverses :
    let k : Task := { prTask with regs := (Vector.replicate 32 (0 : Word)).set 8 0x01020304 }
    (taskOf (after (.opPerm 0 .always 5 8 0x053) (onCore k)) 0).map (·.regs[5]) = some 0x04030201 := by decide

/-- A misaligned `ldw` traps with 0x05, and the address is in tval. -/
theorem test_ldw_misaligned :
    let t := after (.opLdw 0 .always 8 1 0x00C) (onCore { prTask with regs := Vector.replicate 32 0x801E })
    (coreOf t 0).tcause = 0x05 ∧ (coreOf t 0).tval = 0x802A := by decide

/-- A guarded-off `ldw` does not trap and counts a step. -/
theorem test_guard_off :
    let t := after (.opLdw 0 { neg := false, p := 3 } 8 1 0x00C) (onCore { prTask with regs := Vector.replicate 32 0x801E })
    (coreOf t 0).tcause = 0 ∧ (taskOf t 0).map (·.steps) = some 8 := by decide

/-- Division by zero and the most negative dividend (R298). -/
theorem test_div_corners : divS 7 0 = 0xFFFFFFFF ∧ remS 7 0 = 7 ∧ divS 0x80000000 0xFFFFFFFF = 0x80000000 ∧
    remS 0x80000000 0xFFFFFFFF = 0 := by decide

/-- A write of w0 is discarded (R277). -/
theorem test_w0 : (taskOf (after (.opAddi 0 .always 0 5 1) (onCore prTask)) 0).map (fun k => (k.regs[0], k.pc)) = some (5, 4) := by
  decide

/-- The watch list of 11_key_arrays_and_patterns.md: E1 fails at byte 5, E2 and E3 match, and E2 wins. -/
theorem test_watch_list :
    let key := ofLe [0x4B, 0x52, 0x56, 0x34, 0x34, 0x39, 0x31, 0x20, 0x20, 0x20, 0x17, 0x01]
    let e2mask := ofLe [255, 255, 255, 255, 0, 255, 255, 255, 255, 255, 255, 255]
    let e3mask := ofLe [255, 255, 255, 255, 255, 0, 255, 255, 255, 255, 255, 255]
    let e1 := ofLe [0x4B, 0x52, 0x56, 0x34, 0x34, 0x37, 0x31, 0x20, 0x20, 0x20, 0x17, 0x01]
    let t := table0 [(0, { value := e1, mask := 2 ^ 96 - 1, prio := 10, dat := 0x2A17 }),
      (1, { value := key &&& e2mask, mask := e2mask, prio := 200, dat := 0x2A20 }),
      (2, { value := key &&& e3mask, mask := e3mask, prio := 200, dat := 0x2A21 })]
    let f := search (withTable t) t key none
    f.hit = true ∧ f.mhit = true ∧ f.count = 2 ∧ f.prio = 200 ∧ f.dat = 0x2A20 ∧ f.index = 1 := by decide

/-- The heat example of 14_heat_and_supply.md: the second sample at T1 or above enters T1 and starts the grace period. -/
theorem test_t1_entered :
    let s : State := { st0 with thermal := { sensors := [(14, { reading := some 422, t1 := { inside := false, count := 1 } })] } }
    let t := after (.sensorSample (.onDie 14) 424 0) s
    t.thermal.inT1 = true ∧ t.thermal.graceStart = some 1000 := by decide

/-- A reading that touches T1 once moves nothing. -/
theorem test_t1_one_sample :
    (after (.sensorSample (.onDie 14) 420 0) st0).thermal.inT1 = false := by decide

/-- The case extents of 16_field_book_and_presence.md: an Arm answers 0x001E_0001 and raises counter 0. -/
theorem test_presence_arm :
    let t := after (.presenceArm adm 0 {}) st0
    (t.decided.map (·.dw0)) = [0x001E0001#32] ∧ Tab.getD t.book.counters 0 0 = 1 ∧ t.presence.state = .armed := by decide

/-- ACTION 2 without the service jumper is refused with 0x85, LEFT stays and counter 2 rises. -/
theorem test_debug_refused :
    let t := after (.debugPortEnable adm 0 { d10 := 2 }) { st0 with presence := { state := .opened, left := 2 } }
    (t.decided.map (·.sc)) = [0x85] ∧ t.presence.left = 2 ∧ Tab.getD t.book.counters 2 0 = 1 := by decide

/-- The DRAM term of the baseline with seven channels at 6,400 MT/s is 62,720 MB/s (07_dram_and_memory_protection.md). -/
theorem test_dram_term :
    baseDram { st0 with dram := { channels := (List.range 8).map fun i => (i, { inService := decide (i ≠ 6), rate := 6400 }) } }
      = 62720 := by decide

/-- A dump lasts at least 200 ticks of a low input before it starts (R126). -/
theorem test_power_fail :
    let s : State := { st0 with dump := { qualifying := some 801 } }
    (after .powerFailWarning s).dump.active = false ∧
    (after .powerFailWarning { s with datum := 1001 }).dump.active = true := by decide

/-- A Flush completes at once, with success (R98). -/
theorem test_flush : ((after (.flush io 1) st0).decided.map fun c => (c.h, c.sct, c.sc)) = [(io, 0, 0)] := by decide

/-- A read beyond the namespace completes with LBA Out of Range. -/
theorem test_read_out_of_range : ((after (.read io 1 63 1) st0).decided.map fun c => (c.sct, c.sc)) = [(0, 0x80)] := by decide

/-- SHA-256 of "abc" (FIPS 180-4). -/
theorem test_sha256 : ofBe (sha256 (ascii "abc")) = 0xBA7816BF8F01CFEA414140DE5DAE2223B00361A396177A9CB410FF61F20015AD := by
  decide +kernel

end Sys2Proof.Tests
end

section
/-! Reads of IO-space that leave the task on its core, and the datum pair DT_NOW_LO and DT_NOW_HI (R28, R282, R302). -/

namespace Sys2Proof.Machine

/-! ### A change of a task's port registers -/

/-- The view after `f` has changed the port registers of its task. -/
def withPorts (v : View) (f : PortRegs → PortRegs) : View :=
  { v with task := { v.task with ports := f v.task.ports } }

theorem onlyTask_modPorts (s : State) (v : View) (f : PortRegs → PortRegs) : OnlyTask s (modPorts v.t f s) v :=
  ⟨rfl, fun _ hi => taskOf_modTask_ne s _ hi, fun _ _ => rfl⟩

theorem running_modPorts {s : State} {c : CoreId} {v : View} (h : running s c = some v) (f : PortRegs → PortRegs) :
    running (modPorts v.t f s) c = some (withPorts v f) := by
  obtain ⟨hc, hcore, hrun, htask, hdomain⟩ := running_eq h
  refine running_of hc hcore.symm hrun ?_ hdomain
  show taskOf (modTask v.t _ s) v.t = _
  rw [taskOf_modTask_self, htask]
  rfl

/-! ### `in` (R302) -/

/-- A task that still shows on its core after a port's effect goes on with the view it then has. -/
theorem stillRunning_of_running {s : State} {c : CoreId} {v w : View} (h : running s c = some w) (hc : w.c = v.c)
    (ht : w.t = v.t) : stillRunning v s = some w := by
  obtain ⟨hcw, hcore, hrun, htask, -⟩ := running_eq h
  have hshown : coreOf s w.c = w.core := by rw [hcw, hcore]
  simp [stillRunning, ← hc, ← ht, htask, hshown, hrun]

/-- An `in` of a port that the task may access, whose effect changes only the task and leaves it on its core, retires
with the port's value in its register. -/
theorem retires_doIn {i : Instr} {c : CoreId} {g : Guard} {d a : Reg} {imm : BitVec 12}
    {u : List (Nat × Bool × KeyUpset)} {s s' : State} {v w : View} {x : Word}
    (he : exec i s = .next (doIn c g d a imm u s)) (h : Issues s c g v)
    (htrap : portTrap v (portNo v a imm) = none) (hstore : v.task.storeError = none)
    (hread : portRead v (portNo v a imm) u s = (x, s')) (hw : running s' c = some w) (hs : OnlyTask s s' w)
    (ht : w.t = v.t) (hb : w.core.trapped = v.core.trapped) :
    Retires i c s w (viewPc v + 4) (setAt w d x) (rdp w) := by
  obtain ⟨hcv, -, -, -, -⟩ := running_eq h.1
  obtain ⟨hcw, -, hrun, -, hdomain⟩ := running_eq hw
  have hc : w.c = v.c := hcw.trans hcv.symm
  have ho : OperandsOnly w (wr w d x) := operandsOnly_wr w d x
  have hbody : inBody d a imm u v s = .retire (putView (wr w d x) s') := by
    simp only [inBody, htrap, hstore, hread, stillRunning_of_running hw hc ht]
  have hshow : running (putView (wr w d x) s') c = some (wr w d x) := by
    refine running_putView ((wr_c w d x).trans hcw) ?_ hdomain
    rw [wr_t, ← hrun, ho.1]
  refine retiresAfter_of (v := v) ?_ hshow (onlyTask_trans hs (onlyTask_putView (wr_t w d x) (wr_c w d x))) ho hc.symm
    ht.symm hb.symm (rd_wr w d · x) (rdp_wr w d x)
  rw [he, doIn, issue_of h, hbody]

/-- With w0 as its base, an access names the port by its immediate alone (R302). -/
theorem portNo_zero (v : View) (imm : BitVec 12) : portNo v 0 imm = imm.toNat := by
  have hlt : imm.toNat < 2 ^ 12 := imm.isLt
  simp only [portNo, rd_zero, BitVec.ofNat_eq_ofNat, BitVec.zero_add, BitVec.toNat_setWidth]
  omega

/-! ### The datum pair (R28) -/

/-- Every privilege may access DT_NOW_LO and DT_NOW_HI (R27). -/
theorem portTrap_datum (v : View) {p : Nat} (h : p / 256 = 0x07) : portTrap v p = none := by
  simp [portTrap, h]

theorem portRead_dtNowLo (v : View) (u : List (Nat × Bool × KeyUpset)) (s : State) :
    portRead v 0x0700 u s = dtNowLo v s := rfl

theorem portRead_dtNowHi (v : View) (u : List (Nat × Bool × KeyUpset)) (s : State) :
    portRead v 0x0701 u s = (dtNowHi v s, s) := rfl

/-- The port registers once the high half `x` of the datum is captured. -/
def captureHi (x : Word) (p : PortRegs) : PortRegs := { p with nowHi := some x }

/-- A core's region reads its own copy of the datum (R26). -/
theorem regionDatum_of_running {s : State} {c : CoreId} {v : View} (h : running s c = some v) :
    regionDatum v s = Tab.getD s.copies (c.val / 32) s.datum := by
  rw [regionDatum, (running_eq h).1]

theorem retires_dtNowLo {i : Instr} {c : CoreId} {g : Guard} {d a : Reg} {imm : BitVec 12}
    {u : List (Nat × Bool × KeyUpset)} {s : State} {v : View} (he : exec i s = .next (doIn c g d a imm u s))
    (h : Issues s c g v) (hstore : v.task.storeError = none) (hport : portNo v a imm = 0x0700) :
    Retires i c s (withPorts v (captureHi (BitVec.ofNat 32 (regionDatum v s / 2 ^ 32)))) (viewPc v + 4)
      (setAt v d (BitVec.ofNat 32 (regionDatum v s))) (rdp v) := by
  have hread : portRead v (portNo v a imm) u s = dtNowLo v s := by rw [hport, portRead_dtNowLo]
  exact retires_doIn he h (portTrap_datum v (by rw [hport])) hstore hread (running_modPorts h.1 _)
    (onlyTask_modPorts s v _) rfl rfl

theorem retiresWith_dtNowHi {i : Instr} {c : CoreId} {g : Guard} {d a : Reg} {imm : BitVec 12}
    {u : List (Nat × Bool × KeyUpset)} {s : State} {v : View} (he : exec i s = .next (doIn c g d a imm u s))
    (h : Issues s c g v) (hstore : v.task.storeError = none) (hport : portNo v a imm = 0x0701) :
    RetiresWith i c s v d (dtNowHi v s) := by
  have hread : portRead v (portNo v a imm) u s = (dtNowHi v s, s) := by rw [hport, portRead_dtNowHi]
  exact retires_doIn he h (portTrap_datum v (by rw [hport])) hstore hread h.1 (onlyTask_refl s v) rfl rfl

/-- Whatever guard an instruction issues under, the guard (p0) is true as well (R293). -/
theorem issues_always {s : State} {c : CoreId} {g : Guard} {v : View} (h : Issues s c g v) :
    Issues s c Guard.always v := by
  obtain ⟨hrun, hbudget, hfetch, -⟩ := h
  exact ⟨hrun, hbudget, hfetch, rfl⟩

/-- Settles O45: the read of DT_NOW_LO captures in its own task, and the read of DT_NOW_HI answers the capture or, with
none, the region's copy. -/
theorem datumPairReads : Obligations.DatumPairReads := by
  intro s c g v d a imm h hstore _ port now high captured
  have hnow : regionDatum v s = now := regionDatum_of_running h.1
  have hcaptured : captured = withPorts v (captureHi (BitVec.ofNat 32 (regionDatum v s / 2 ^ 32))) := by
    rw [hnow]
    rfl
  refine ⟨fun hport => ?_, fun x hport hx => ?_, fun hport hx => ?_, ?_⟩
  · rw [hcaptured, ← hnow]
    exact retires_dtNowLo rfl h hstore hport
  · have hvalue : dtNowHi v s = x := by rw [dtNowHi, hx, Option.getD_some]
    exact hvalue ▸ retiresWith_dtNowHi rfl h hstore hport
  · have hvalue : dtNowHi v s = high := by rw [dtNowHi, hx, Option.getD_none, hnow]
    exact hvalue ▸ retiresWith_dtNowHi rfl h hstore hport
  · rw [hcaptured, ← hnow]
    exact retires_dtNowLo rfl (issues_always h) hstore (portNo_zero v 0x700)

end Sys2Proof.Machine
end

section
/-! Flush (R98). -/

namespace Sys2Proof.Machine

theorem exec_flush (h : Sub) (nsid : Nat) (s : State) : exec (.flush h nsid) s = execFlush h nsid s := rfl

/-- A Flush that names an attached namespace, or all of them, completes with success at once (R98). -/
theorem execFlush_of_named {s : State} {h : Sub} {nsid : Nat}
    (hn : (nsForIo s h nsid).isSome = true ∨ nsid = 0xFFFFFFFF) : execFlush h nsid s = .next (completeOk h s) := by
  rw [execFlush, if_pos hn.symm]

/-- A Flush that names neither reaches no namespace: entry 57 (R450). -/
theorem execFlush_of_unnamed {s : State} {h : Sub} {nsid : Nat} (hn : (nsForIo s h nsid).isSome = false)
    (hall : nsid ≠ 0xFFFFFFFF) : execFlush h nsid s = .next (refuse h sNamespace s) := by
  have hneither : ¬ (nsid = 0xFFFFFFFF ∨ (nsForIo s h nsid).isSome = true) := by simp [hn, hall]
  rw [execFlush, if_neg hneither]

/-- Settles O23: the test of the namespace decides between success, of which only the completion remains, and the
refusal. -/
theorem flushCompletesAtOnce : Obligations.FlushCompletesAtOnce := by
  intro h nsid s
  refine ⟨fun hn => ?_, fun hn hall => ?_⟩
  · rw [exec_flush, execFlush_of_named hn, completeOk_eq]
    rfl
  · rw [exec_flush, execFlush_of_unnamed hn hall, refuse, complete]

end Sys2Proof.Machine
end

section
/-! The arithmetic, logic, shift, bit-field and byte operations of Opxus (R296 to R298). -/

namespace Sys2Proof.Machine

/-! ### Sums and shifts (R296) -/

theorem add_eq_ofNat {w : Nat} (x y : BitVec w) : x + y = BitVec.ofNat w (x.toNat + y.toNat) := by
  rw [BitVec.ofNat_add, BitVec.ofNat_toNat, BitVec.ofNat_toNat, BitVec.setWidth_eq, BitVec.setWidth_eq]

theorem sub_eq_ofInt {w : Nat} (x y : BitVec w) : x - y = BitVec.ofInt w (x.toInt - y.toInt) := by
  apply BitVec.eq_of_toInt_eq
  rw [BitVec.toInt_sub, BitVec.toInt_ofInt]

theorem add_sext12_eq_ofInt (x : Word) (imm : BitVec 12) :
    x + sext12 imm = BitVec.ofInt 32 (x.toInt + imm.toInt) := by
  rw [sext12, BitVec.ofInt_add, BitVec.ofInt_toInt, ← BitVec.toInt_signExtend_of_le (v := 32) (by decide),
    BitVec.ofInt_toInt]

theorem shiftLeft_eq_ofNat {w : Nat} (x : BitVec w) (n : Nat) : x <<< n = BitVec.ofNat w (x.toNat * 2 ^ n) := by
  apply BitVec.eq_of_toNat_eq
  rw [BitVec.toNat_shiftLeft, BitVec.toNat_ofNat, Nat.shiftLeft_eq]

theorem ushiftRight_eq_ofNat {w : Nat} (x : BitVec w) (n : Nat) : x >>> n = BitVec.ofNat w (x.toNat / 2 ^ n) := by
  rw [← Nat.shiftRight_eq_div_pow, ← BitVec.toNat_ushiftRight, BitVec.ofNat_toNat, BitVec.setWidth_eq]

theorem sshiftRight_eq_ofInt {w : Nat} (x : BitVec w) (n : Nat) :
    x.sshiftRight n = BitVec.ofInt w (x.toInt / 2 ^ n) := by
  have hdiv : x.toInt >>> n = x.toInt / 2 ^ n :=
    (Int.shiftRight_eq_div_pow x.toInt n).trans (congrArg (x.toInt / ·) (Int.natCast_pow 2 n))
  rw [← hdiv, ← BitVec.toInt_sshiftRight, BitVec.ofInt_toInt]

theorem rotateRight_eq_or {w : Nat} (x : BitVec w) {n : Nat} (hn : n < w) :
    x.rotateRight n = x >>> n ||| x <<< (w - n) := by
  rw [BitVec.rotateRight_def, Nat.mod_eq_of_lt hn]

/-- `sli` shifts 12 bits in, so its OR adds (R296). -/
theorem shiftLeft_or_imm_eq_ofNat (x : Word) (imm : BitVec 12) :
    x <<< 12 ||| imm.zeroExtend 32 = BitVec.ofNat 32 (x.toNat * 4096 + imm.toNat) := by
  have hdisjoint : x <<< 12 &&& imm.zeroExtend 32 = 0#32 := by
    apply BitVec.eq_of_getLsbD_eq
    intro i hi
    by_cases h : i < 12
    · simp [h]
    · simp [BitVec.getLsbD_of_ge imm i (by omega)]
  have hshift : x <<< 12 = BitVec.ofNat 32 (x.toNat * 4096) := shiftLeft_eq_ofNat x 12
  have himm : imm.zeroExtend 32 = BitVec.ofNat 32 imm.toNat := (BitVec.ofNat_toNat 32 imm).symm
  rw [← BitVec.add_eq_or_of_and_eq_zero _ _ hdisjoint, hshift, himm, BitVec.ofNat_add]

/-- The shift counts and the bit position are the low five bits of wb (R296, R297). -/
theorem bits_low_five (n : Nat) : bits n 4 0 = n % 32 := by
  simp [bits]

theorem bits_low_five_lt (n : Nat) : bits n 4 0 < 32 := Nat.mod_lt _ (by decide)

/-! ### Products and quotients (R296) -/

theorem mul_eq_ofNat {w : Nat} (x y : BitVec w) : x * y = BitVec.ofNat w (x.toNat * y.toNat) := by
  rw [BitVec.ofNat_mul, BitVec.ofNat_toNat, BitVec.ofNat_toNat, BitVec.setWidth_eq, BitVec.setWidth_eq]

/-- The high half of a double word is its floor quotient by 2³², whatever lies above bit 63. -/
theorem highWord_ofInt (z : Int) : ((BitVec.ofInt 64 z) >>> 32).truncate 32 = BitVec.ofInt 32 (z / 2 ^ 32) := by
  apply BitVec.eq_of_toNat_eq
  simp only [BitVec.truncate_eq_setWidth, BitVec.toNat_setWidth, BitVec.toNat_ushiftRight, BitVec.toNat_ofInt,
    Nat.shiftRight_eq_div_pow]
  omega

theorem mulHigh_eq_ofInt (x y : Word) : mulHigh x y = BitVec.ofInt 32 (x.toInt * y.toInt / 2 ^ 32) := by
  have hproduct : x.signExtend 64 * y.signExtend 64 = BitVec.ofInt 64 (x.toInt * y.toInt) := by
    rw [BitVec.ofInt_mul, ← BitVec.toInt_signExtend_of_le (v := 64) (by decide), BitVec.ofInt_toInt,
      ← BitVec.toInt_signExtend_of_le (v := 64) (by decide), BitVec.ofInt_toInt]
  rw [mulHigh, hproduct, highWord_ofInt]

theorem mulHighU_eq_ofNat (x y : Word) : mulHighU x y = BitVec.ofNat 32 (x.toNat * y.toNat / 2 ^ 32) := by
  have hproduct : x.zeroExtend 64 * y.zeroExtend 64 = BitVec.ofInt 64 (x.toNat * y.toNat : Nat) := by
    rw [BitVec.ofInt_natCast, BitVec.ofNat_mul, BitVec.ofNat_toNat, BitVec.ofNat_toNat]
  have hquotient : ((x.toNat * y.toNat / 2 ^ 32 : Nat) : Int) = (x.toNat * y.toNat : Nat) / 2 ^ 32 :=
    Int.natCast_ediv _ _
  rw [mulHighU, hproduct, highWord_ofInt, ← BitVec.ofInt_natCast, hquotient]

/-- The quotient −2³¹ ÷ −1, which no word holds, wraps to −2³¹ (R296). -/
theorem divS_eq_ite (x y : Word) :
    divS x y = if y = 0 then 0xFFFFFFFF#32 else BitVec.ofInt 32 (x.toInt.tdiv y.toInt) := by
  have hwrap : x.sdiv y = BitVec.ofInt 32 (x.toInt.tdiv y.toInt) := by
    apply BitVec.eq_of_toInt_eq
    rw [BitVec.toInt_sdiv, BitVec.toInt_ofInt]
  rw [divS, ← hwrap]
  split
  · rfl
  · split
    next hcorner =>
      rw [hcorner.1, hcorner.2]
      decide
    next => rfl

theorem remS_eq_ite (x y : Word) :
    remS x y = if y = 0 then x else BitVec.ofInt 32 (x.toInt.tmod y.toInt) := by
  rw [remS, ← BitVec.toInt_srem, BitVec.ofInt_toInt]
  split
  · rfl
  · split
    next hcorner =>
      rw [hcorner.1, hcorner.2]
      decide
    next => rfl

theorem divU_eq_ite (x y : Word) :
    divU x y = if y = 0 then 0xFFFFFFFF#32 else BitVec.ofNat 32 (x.toNat / y.toNat) := by
  rw [divU, ← BitVec.toNat_udiv, BitVec.ofNat_toNat, BitVec.setWidth_eq]

theorem remU_eq_ite (x y : Word) : remU x y = if y = 0 then x else BitVec.ofNat 32 (x.toNat % y.toNat) := by
  rw [remU, ← BitVec.toNat_umod, BitVec.ofNat_toNat, BitVec.setWidth_eq]

/-! ### Minima and maxima (R296) -/

theorem ite_slt_eq_min {w : Nat} (x y : BitVec w) :
    (if x.slt y then x else y) = BitVec.ofInt w (min x.toInt y.toInt) := by
  have hmin : min x.toInt y.toInt = if x.toInt < y.toInt then x.toInt else y.toInt := by
    split <;> omega
  rw [hmin, apply_ite (BitVec.ofInt w), BitVec.ofInt_toInt, BitVec.ofInt_toInt]
  simp only [BitVec.slt_iff_toInt_lt]

theorem ite_slt_eq_max {w : Nat} (x y : BitVec w) :
    (if x.slt y then y else x) = BitVec.ofInt w (max x.toInt y.toInt) := by
  have hmax : max x.toInt y.toInt = if x.toInt < y.toInt then y.toInt else x.toInt := by
    split <;> omega
  rw [hmax, apply_ite (BitVec.ofInt w), BitVec.ofInt_toInt, BitVec.ofInt_toInt]
  simp only [BitVec.slt_iff_toInt_lt]

theorem ite_ult_eq_min {w : Nat} (x y : BitVec w) :
    (if x.ult y then x else y) = BitVec.ofNat w (min x.toNat y.toNat) := by
  have hmin : min x.toNat y.toNat = if x.toNat < y.toNat then x.toNat else y.toNat := by
    split <;> omega
  rw [hmin, apply_ite (BitVec.ofNat w), BitVec.ofNat_toNat, BitVec.ofNat_toNat, BitVec.setWidth_eq,
    BitVec.setWidth_eq]
  simp only [BitVec.ult_iff_toNat_lt]

theorem ite_ult_eq_max {w : Nat} (x y : BitVec w) :
    (if x.ult y then y else x) = BitVec.ofNat w (max x.toNat y.toNat) := by
  have hmax : max x.toNat y.toNat = if x.toNat < y.toNat then y.toNat else x.toNat := by
    split <;> omega
  rw [hmax, apply_ite (BitVec.ofNat w), BitVec.ofNat_toNat, BitVec.ofNat_toNat, BitVec.setWidth_eq,
    BitVec.setWidth_eq]
  simp only [BitVec.ult_iff_toNat_lt]

/-! ### Counts of bits (R296, R298) -/

theorem leadingZeros_zero (n : Nat) : leadingZeros 0 n = n := by
  induction n with
  | zero => rfl
  | succ n ih =>
    rw [leadingZeros, ih]
    simp

/-- The scan from bit `n` downwards stops at the highest 1 bit. -/
theorem leadingZeros_eq_sub_log2 {a : Word} (ha : a.toNat ≠ 0) {n : Nat} (hlog : a.toNat.log2 < n) :
    leadingZeros a n = n - 1 - a.toNat.log2 := by
  induction n with
  | zero => exact absurd hlog (Nat.not_lt_zero _)
  | succ n ih =>
    rw [leadingZeros]
    split
    next hset =>
      have hle : n ≤ a.toNat.log2 := (Nat.le_log2 ha).mpr (Nat.ge_two_pow_of_testBit hset)
      omega
    next hclear =>
      have hne : a.toNat.log2 ≠ n := by
        rintro rfl
        exact hclear (Nat.testBit_log2 ha)
      rw [ih (by omega)]
      omega

theorem leadingZeros_eq_ite (x : Word) : leadingZeros x 32 = if x = 0 then 32 else 31 - x.toNat.log2 := by
  split
  next hzero => rw [hzero, leadingZeros_zero]
  next hne =>
    have hnat : x.toNat ≠ 0 := fun h => hne (BitVec.eq_of_toNat_eq h)
    exact leadingZeros_eq_sub_log2 hnat ((Nat.log2_lt hnat).mpr x.isLt)

theorem popCount_eq_filter (x : Word) :
    popCount x = ((List.range 32).filter fun i => x.toNat / 2 ^ i % 2 = 1).length := by
  simp only [popCount, ← BitVec.testBit_toNat, Nat.testBit_eq_decide_div_mod_eq]

/-! ### Bit fields (R297) -/

theorem regPos_eq (y : Word) : regPos y = y.toNat % 32 := bits_low_five _

theorem regWidth_eq (y : Word) : regWidth y = min (y.toNat / 32 % 32 + 1) (32 - y.toNat % 32) := by
  rw [regWidth, regPos_eq]
  rfl

theorem regWidth_pos (y : Word) : 0 < regWidth y := by
  have hpos : regPos y < 32 := bits_low_five_lt _
  rw [regWidth]
  omega

/-- The clamp of the register forms keeps the field in the word (R297). -/
theorem regPos_add_regWidth_le (y : Word) : regPos y + regWidth y ≤ 32 := by
  have hpos : regPos y < 32 := bits_low_five_lt _
  rw [regWidth]
  omega

theorem regWidth_le (y : Word) : regWidth y ≤ 32 :=
  Nat.le_trans (Nat.le_add_left _ _) (regPos_add_regWidth_le y)

theorem getLsbD_mask32 (w i : Nat) : (mask32 w).getLsbD i = (decide (i < 32) && decide (i < w)) := by
  rw [mask32, BitVec.getLsbD_ofNat, Nat.testBit_two_pow_sub_one]

theorem fieldU_eq_extract (x : Word) (p w : Nat) : fieldU x p w = (x.extractLsb' p w).zeroExtend 32 := by
  apply BitVec.eq_of_getLsbD_eq
  intro i hi
  rw [fieldU, BitVec.getLsbD_and, BitVec.getLsbD_ushiftRight, getLsbD_mask32, BitVec.getLsbD_setWidth,
    BitVec.getLsbD_extractLsb', decide_eq_true hi, Bool.true_and, Bool.true_and, Bool.and_comm]

/-- The two shifts carry the field's top bit, bit `w - 1`, into the word's sign and back (R297). -/
theorem fieldS_eq_extract (x : Word) (p : Nat) {w : Nat} (hpos : 0 < w) (hw : w ≤ 32) :
    fieldS x p w = (x.extractLsb' p w).signExtend 32 := by
  have hbit : ∀ i, i < w → ((x >>> p) <<< (32 - w)).getLsbD (32 - w + i) = x.getLsbD (p + i) := fun i hi => by
    have hin : 32 - w + i < 32 := by omega
    rw [BitVec.getLsbD_shiftLeft, BitVec.getLsbD_ushiftRight, Nat.add_sub_cancel_left]
    simp [hin]
  have hsign : ((x >>> p) <<< (32 - w)).msb = (x.extractLsb' p w).msb := by
    have hlast : 32 - w + (w - 1) = 32 - 1 := by omega
    have htop : w - 1 < w := by omega
    rw [BitVec.msb_eq_getLsbD_last, BitVec.msb_eq_getLsbD_last, BitVec.getLsbD_extractLsb', ← hlast, hbit _ htop,
      decide_eq_true htop, Bool.true_and]
  apply BitVec.eq_of_getLsbD_eq
  intro i hi
  rw [fieldS, BitVec.getLsbD_sshiftRight, BitVec.getLsbD_signExtend, hsign]
  by_cases hin : i < w
  · rw [if_pos (by omega), if_pos hin, hbit i hin, BitVec.getLsbD_extractLsb']
    simp [hi, hin]
  · rw [if_neg (by omega), if_neg hin]
    simp [hi]

theorem getLsbD_fieldIns (d x : Word) {p w : Nat} (hfit : p + w ≤ 32) {i : Nat} (hi : i < 32) :
    (fieldIns d x p w).getLsbD i = if p ≤ i ∧ i < p + w then x.getLsbD (i - p) else d.getLsbD i := by
  simp only [fieldIns, BitVec.getLsbD_or, BitVec.getLsbD_and, BitVec.getLsbD_not, BitVec.getLsbD_shiftLeft,
    getLsbD_mask32, hi, decide_true, Bool.true_and]
  by_cases hlow : i < p
  · rw [if_neg (by omega)]
    simp [hlow]
  · have hsub : i - p < 32 := by omega
    have hiff : i - p < w ↔ p ≤ i ∧ i < p + w := by omega
    simp only [hlow, hsub, hiff]
    split
    next hin => simp [hin]
    next hout => simp [hout]

/-! ### Byte permutation (R298) -/

theorem bits_byte (n i : Nat) : bits n (8 * i + 7) (8 * i) = n / 2 ^ (8 * i) % 256 := by
  rw [bits, show 8 * i + 7 + 1 - 8 * i = 8 by omega, show 2 ^ 8 = 256 by rfl]

theorem bits_selector (n k : Nat) : bits n (3 * k + 2) (3 * k) = n / 8 ^ k % 8 := by
  rw [bits, show 3 * k + 2 + 1 - 3 * k = 3 by omega, Nat.pow_mul, show 2 ^ 3 = 8 by rfl]

theorem permByte_eq_ite (lo hi : Word) (i : Nat) : permByte lo hi i =
    if i < 4 then lo.toNat / 2 ^ (8 * i) % 256 else hi.toNat / 2 ^ (8 * (i - 4)) % 256 := by
  rw [permByte, bits_byte, bits_byte]

theorem permByte_lt (lo hi : Word) (i : Nat) : permByte lo hi i < 256 := by
  rw [permByte_eq_ite]
  split <;> exact Nat.mod_lt _ (by decide)

theorem sum_map_range_four (g : Nat → Nat) : ((List.range 4).map g).sum = g 0 + g 1 + g 2 + g 3 := by
  simp [List.range_succ, Nat.add_assoc]

/-- Four bytes, each at its place, do not carry into each other. -/
theorem byte_ofNat_sum {f : Nat → Nat} (hf : ∀ k, f k < 256) {k : Nat} (hk : k < 4) :
    (BitVec.ofNat 32 ((List.range 4).map fun j => f j * 2 ^ (8 * j)).sum).toNat / 2 ^ (8 * k) % 256 = f k := by
  have h0 := hf 0
  have h1 := hf 1
  have h2 := hf 2
  have h3 := hf 3
  rw [sum_map_range_four, BitVec.toNat_ofNat]
  obtain rfl | rfl | rfl | rfl : k = 0 ∨ k = 1 ∨ k = 2 ∨ k = 3 := by omega
  all_goals omega

theorem byte_permute (sel : Nat) (lo hi : Word) {k : Nat} (hk : k < 4) :
    (permute sel lo hi).toNat / 2 ^ (8 * k) % 256 =
      let i := sel / 8 ^ k % 8
      if i < 4 then lo.toNat / 2 ^ (8 * i) % 256 else hi.toNat / 2 ^ (8 * (i - 4)) % 256 := by
  rw [permute, byte_ofNat_sum (fun j => permByte_lt lo hi (bits sel (3 * j + 2) (3 * j))) hk, permByte_eq_ite,
    bits_selector]

/-- The selector of `permr` is the low twelve bits of wd (R298). -/
theorem bits_low_twelve (n : Nat) : bits n 11 0 = n % 4096 := by
  simp [bits]

/-! ### The obligation -/

/-- An instruction that writes one register and whose encoding is legal under a condition that holds (R297). -/
theorem retiresWith_of_legal {i : Instr} {c : CoreId} {g : Guard} {w : Word} {legal : Bool} {d : Reg}
    {f : View → Word} {s : State} {v : View} {x : Word}
    (he : exec i s = .next (issue c g w legal (toReg d f) s)) (hlegal : legal = true) (h : Issues s c g v)
    (hx : f v = x) : RetiresWith i c s v d x :=
  retiresWith_of (hlegal ▸ he) h hx

/-- Settles O33: every operation is an issue that writes one register, and the value that it writes is the one of its
operation's own lemma above. -/
theorem aluOperations : Obligations.AluOperations := by
  refine ⟨fun s c g v d a b imm sh h => ?_, fun s c g v d a b h => ?_, fun s c g v d a b p w1 sel h => ?_⟩
  · intro x y n
    have hn : bits y.toNat 4 0 = n := bits_low_five _
    clear_value n
    subst hn
    exact ⟨retiresWith_of rfl h (add_eq_ofNat x y),
      retiresWith_of rfl h (sub_eq_ofInt x y),
      retiresWith_of rfl h rfl,
      retiresWith_of rfl h rfl,
      retiresWith_of rfl h rfl,
      retiresWith_of rfl h rfl,
      retiresWith_of rfl h (shiftLeft_eq_ofNat x _),
      retiresWith_of rfl h (ushiftRight_eq_ofNat x _),
      retiresWith_of rfl h (sshiftRight_eq_ofInt x _),
      retiresWith_of rfl h (rotateRight_eq_or x (bits_low_five_lt _)),
      retiresWith_of rfl h (add_sext12_eq_ofInt x imm),
      retiresWith_of rfl h rfl,
      retiresWith_of rfl h rfl,
      retiresWith_of rfl h rfl,
      retiresWith_of rfl h (shiftLeft_eq_ofNat x _),
      retiresWith_of rfl h (ushiftRight_eq_ofNat x _),
      retiresWith_of rfl h (sshiftRight_eq_ofInt x _),
      retiresWith_of rfl h (shiftLeft_or_imm_eq_ofNat x imm)⟩
  · intro x y
    exact ⟨retiresWith_of rfl h (mul_eq_ofNat x y),
      retiresWith_of rfl h (mulHigh_eq_ofInt x y),
      retiresWith_of rfl h (mulHighU_eq_ofNat x y),
      retiresWith_of rfl h (divS_eq_ite x y),
      retiresWith_of rfl h (divU_eq_ite x y),
      retiresWith_of rfl h (remS_eq_ite x y),
      retiresWith_of rfl h (remU_eq_ite x y),
      retiresWith_of rfl h (ite_slt_eq_min x y),
      retiresWith_of rfl h (ite_slt_eq_max x y),
      retiresWith_of rfl h (ite_ult_eq_min x y),
      retiresWith_of rfl h (ite_ult_eq_max x y),
      retiresWith_of rfl h (congrArg _ (leadingZeros_eq_ite x)),
      retiresWith_of rfl h (congrArg _ (popCount_eq_filter x))⟩
  · intro x y pos width inserted byte chosen
    have hpos : regPos y = pos := regPos_eq y
    have hwidth : regWidth y = width := regWidth_eq y
    clear_value width
    clear_value pos
    subst hpos hwidth
    refine ⟨retiresWith_of rfl h (fieldS_eq_extract x _ (regWidth_pos y) (regWidth_le y)),
      retiresWith_of rfl h (fieldU_eq_extract x _ _),
      ⟨_, retiresWith_of rfl h rfl, fun i hi => getLsbD_fieldIns _ x (regPos_add_regWidth_le y) hi⟩,
      ⟨_, retiresWith_of rfl h rfl, fun k hk => ?_⟩,
      ⟨_, retiresWith_of rfl h rfl, fun k hk => byte_permute _ x _ hk⟩, fun hlegal => ?_⟩
    · rw [← bits_low_twelve]
      exact byte_permute _ x y hk
    · have ht := decide_eq_true hlegal
      have hfit : p.toNat + (w1.toNat + 1) ≤ 32 := hlegal
      exact ⟨retiresWith_of_legal rfl ht h (fieldS_eq_extract x _ (Nat.succ_pos _) w1.isLt),
        retiresWith_of_legal rfl ht h (fieldU_eq_extract x _ _),
        ⟨_, retiresWith_of_legal rfl ht h rfl, fun i hi => getLsbD_fieldIns _ x hfit hi⟩⟩

end Sys2Proof.Machine
end
